-- ==== Sys2Proof/Word.lean ====
section
/-! DEFINITION. The word types of the core: bytes, bus words, bus addresses, and the fixed-size byte vectors of
00_scope.md rules R12 to R14. The fixed sizes are the type-level guarantee that rule R197 asks for. -/

namespace Sys2Proof

/-- A byte, "an 8-bit unsigned value" (R12). -/
abbrev Byte := BitVec 8

/-- A 32-bit bus word or command word (R14, R70). -/
abbrev Word := BitVec 32

/-- A 6-bit word address of the register bus (R50). -/
abbrev BusAddr := BitVec 6

/-- A 4-byte word `W[0..3]` (R13): register W, or one column of a block. -/
structure Quad where
  b0 : Byte
  b1 : Byte
  b2 : Byte
  b3 : Byte
deriving DecidableEq, Repr

/-- A 16-byte quantity as its four columns (R13): byte `4c + r` is row `r` of column `c`. -/
structure Block where
  c0 : Quad
  c1 : Quad
  c2 : Quad
  c3 : Quad
deriving DecidableEq, Repr

/-- The key-schedule table's 11 entries `KS[0..10]` (R25). -/
structure KeyTable where
  k0 : Block
  k1 : Block
  k2 : Block
  k3 : Block
  k4 : Block
  k5 : Block
  k6 : Block
  k7 : Block
  k8 : Block
  k9 : Block
  k10 : Block
deriving DecidableEq, Repr

/-- The quad of four zero bytes. -/
def Quad.zero : Quad := ⟨0, 0, 0, 0⟩

/-- The block of sixteen zero bytes. -/
def Block.zero : Block := ⟨Quad.zero, Quad.zero, Quad.zero, Quad.zero⟩

/-- The table of eleven zero blocks. -/
def KeyTable.zero : KeyTable :=
  ⟨Block.zero, Block.zero, Block.zero, Block.zero, Block.zero, Block.zero, Block.zero, Block.zero,
    Block.zero, Block.zero, Block.zero⟩

end Sys2Proof
end

