-- ==== Sys2Proof/Config.lean ====
section
/-! DEFINITION. What the spec leaves open: the OPEN parameters of 92_eei_decisions.md (LAT, CORE_BASE, N_CORES) and the
free values of rules R60 and R204. Each is an opaque constant: nothing in Lean can evaluate it, so a claim about it
holds whatever it is. Also the fixed parameters of 00_scope.md rules R10 and R11. -/

namespace Sys2Proof

/-- FREE VALUE (log 2). The 32-bit word that the n-th draw of an instance (its number first) answers for a bus read,
during BUSY, of a word in the pending command's write set (R204): fresh for every read of every instance, under no
law. -/
opaque Config.busyRead : Nat → Nat → Word

/-- FREE VALUE (log 1). How many Host operations take effect between the acceptance of a command by an instance (its
number first, then the number of the draw) and its Core step, as long as the Host has operations left (R60 leaves it open). Being a natural number it is the weak fairness of
R206: the step is taken eventually. -/
opaque Config.coreDelay : Nat → Nat → Nat

/-- The word number of CORE_BASE of each instance: OPEN, a multiple of 4, and each instance has its own bus window, which
the platform places (R55, R58, R194, D4; log 7). -/
opaque Config.coreBaseWord : Nat → Nat

/-- OPEN parameter CORE_BASE: the byte address of word 0 of an instance in a platform's address space (R55). -/
def Config.coreBase (inst : Nat) : Nat := 4 * Config.coreBaseWord inst

/-- How many instances there are beyond the first (R11; log 8). -/
opaque Config.extraCores : Nat

/-- OPEN parameter N_CORES, at least 1 (R11, R194). -/
def Config.nCores : Nat := Config.extraCores + 1

/-- How many clock cycles beyond the first a command with this opcode takes (R209; log 9). -/
opaque Config.extraLatency : BitVec 8 → Nat

/-- OPEN parameter LAT(op), at least 1, a function of the opcode only (R11, R209). No rule of the model depends on it. -/
def Config.latency (op : BitVec 8) : Nat := Config.extraLatency op + 1

/-- NUM_ROUNDS (R10). -/
def Config.numRounds : Nat := 10

/-- NUM_ROUND_KEYS (R10). -/
def Config.numRoundKeys : Nat := 11

/-- BUS_DATA_W (R11). -/
def Config.busDataWidth : Nat := 32

/-- BUS_ADDR_W (R11). -/
def Config.busAddrWidth : Nat := 6

end Sys2Proof
end

