-- ==== Sys2Proof/Syntax.lean ====
section
/-! DEFINITION. The commands of the core: one constructor per row of spec/opcode_table.json (30_encoding.md rule R72).
`p` and `q` are the naturals of the 4-bit fields P and Q, `a` and `b` the bytes of the fields A and B (R71).
WellFormed.lean says which naturals fit their field. -/

namespace Sys2Proof

/-- A command of the core. -/
inductive Instr where
  /-- `GMUL a, b` (R91). -/
  | gmul (a b : Byte)
  /-- `SBYTE a` (R102). -/
  | sbyte (a : Byte)
  /-- `SUBRNG p, q` (R103). -/
  | subrng (p q : Nat)
  /-- `ROTW` (R122). -/
  | rotw
  /-- `SUBW` (R123). -/
  | subw
  /-- `ADDRC p` (R124). -/
  | addrc (p : Nat)
  /-- `KEYEXP p` (R125). -/
  | keyexp (p : Nat)
  /-- `KEYSCHED` (R126). -/
  | keysched
  /-- `SHROWS` (R143). -/
  | shrows
  /-- `MIXCOL` (R144). -/
  | mixcol
  /-- `ADDRK` (R145). -/
  | addrk
  /-- `SUBST` (R146). -/
  | subst
  /-- `ENCRYPT` (R160). -/
  | encrypt
deriving DecidableEq, Repr

end Sys2Proof
end

