-- ==== Sys2Proof/Machine/State.lean ====
section
/-! DEFINITION. The state of the machine as plain data: every register of 10_state.md, the model fault mark of
60_exceptions.md rule R198, the Host agent's remaining program (20_memory.md rules R66, R67), and the three
fields of the model's own that its free values rest on. The core has no data memory, no program counter and no
modes (R33, R36, R190), so there is no field for one. -/

namespace Sys2Proof.Machine

open Sys2Proof

/-- The values of ERRCODE (R180). Codes 5..15 are reserved and never produced (U13), so the type has none. -/
inductive ErrCode where
  /-- 0, NONE: no error recorded since ERR was last cleared. -/
  | noError
  /-- 1, ILLEGAL_CMD. -/
  | illegalCmd
  /-- 2, ROUND_RANGE. -/
  | roundRange
  /-- 3, RANGE_BOUNDS. -/
  | rangeBounds
  /-- 4, BUSY_WRITE. -/
  | busyWrite
deriving DecidableEq, Repr

/-- One operation of a Host program (R66, R67, R82). -/
inductive HostOp where
  /-- `BusWrite(a, v)`: write data, issue, or clear. -/
  | write (a : BusAddr) (v : Word)
  /-- `BusRead(a)`, its value named as in `RD reg -> name`. -/
  | read (a : BusAddr) (name : Option (List Char))
  /-- `WAIT` (R83): read STATUS, and again while BUSY = 1. -/
  | wait
  /-- Assert reset (R200). -/
  | assertReset
  /-- A platform's read of `bytes` bytes at a byte address (R55). -/
  | platformRead (byteAddr : Nat) (bytes : Nat)
  /-- A platform's write of `bytes` bytes at a byte address (R55). -/
  | platformWrite (byteAddr : Nat) (bytes : Nat) (v : Word)
deriving DecidableEq, Repr

/-- What the Host got back from one bus read (R66). -/
structure ReadRecord where
  addr : BusAddr
  value : Word
  name : Option (List Char)
deriving DecidableEq, Repr

/-- Why the machine stops with a fault. -/
inductive Fault where
  /-- Raised by the Core step alone, when PEND holds a word that does not decode. R31 says that PEND holds an accepted
  command word, so no run reaches this (log 5). Safe: the model stops where the spec has no behaviour. -/
  | undecodablePending
deriving DecidableEq, Repr

/-- Why the machine gives no meaning. -/
inductive Refusal where
  /-- Raised by an arm of exec whose instruction has no meaning yet. Safe: the model stops. No arm raises it. -/
  | notModelled (mnemonic : String)
  /-- Raised by a platform access that is not aligned to 4 bytes (R55, U11: a model refuses it; log 7). Safe. -/
  | platformMisaligned
  /-- Raised by a platform access that is not 4 bytes wide (R55, U11; log 7). Safe. -/
  | platformWidth
  /-- Raised by a platform access outside the core's window of 64 words, which is not an access to this core (R58;
  log 7). Safe. -/
  | platformOutsideWindow
deriving DecidableEq, Repr

/-- The state of one core and of the Host that drives it. -/
structure State where
  /-- ST, the state register (R21). -/
  st : Block
  /-- KY, the key register (R22). -/
  ky : Block
  /-- W, the word register (R23). -/
  w : Quad
  /-- Y, the byte result register (R24). -/
  y : Byte
  /-- KS, the key-schedule table (R25). -/
  ks : KeyTable
  /-- STATUS.BUSY (R28, R30). -/
  busy : Bool
  /-- STATUS.DONE (R28, R30). -/
  done : Bool
  /-- STATUS.ERR (R28, R32). -/
  err : Bool
  /-- STATUS.ERRCODE (R28, R180). -/
  errcode : ErrCode
  /-- PEND, the pending-command latch (R31). -/
  pend : Option Word
  /-- The sticky model-level fault mark (R198). -/
  faultMark : Bool
  /-- The Host's remaining operations, oldest first (R67). -/
  host : List HostOp
  /-- What the Host has got back so far, oldest first (R66). -/
  reads : List ReadRecord
  /-- The model's own (log 1): how many more Host operations take effect before the Core's step. -/
  coreWait : Nat
  /-- The model's own (logs 1 and 2): how many free values this instance has drawn. -/
  draws : Nat
  /-- The model's own (log 8): which of the N_CORES instances this is, so that no two share a free value or a bus
  window. No register holds it (R194), no bus word shows it and no step changes it. -/
  inst : Nat
deriving DecidableEq, Repr

/-- The machine right after reset (R37, R200 to R202): every register zero, STATUS zero, PEND none, no fault mark. The
last five fields are the Host's and the model's own (logs 4 and 8). -/
def State.reset : State where
  st := Block.zero
  ky := Block.zero
  w := Quad.zero
  y := 0
  ks := KeyTable.zero
  busy := false
  done := false
  err := false
  errcode := .noError
  pend := none
  faultMark := false
  host := []
  reads := []
  coreWait := 0
  draws := 0
  inst := 0

end Sys2Proof.Machine
end

