-- ==== Sys2Proof/Machine/Operands.lean ====
section
/-! DEFINITION. Operand forms: the bytes and columns of the byte vectors (00_scope.md rule R13), packing to and from bus
words (rule R14), bytewise XOR (rule R12), and the two operands with a domain of their own, the round index and the
index range (30_encoding.md rule R76). -/

namespace Sys2Proof

/-- `W[i]` (R13). -/
def Quad.get (q : Quad) : Fin 4 → Byte
  | 0 => q.b0
  | 1 => q.b1
  | 2 => q.b2
  | 3 => q.b3

/-- The quad whose byte `i` is `f i`. -/
def Quad.ofFn (f : Fin 4 → Byte) : Quad := ⟨f 0, f 1, f 2, f 3⟩

/-- Bytewise XOR of two quads (R12). -/
def Quad.xor (p q : Quad) : Quad := ⟨p.b0 ^^^ q.b0, p.b1 ^^^ q.b1, p.b2 ^^^ q.b2, p.b3 ^^^ q.b3⟩

/-- Each byte through `f`. -/
def Quad.map (f : Byte → Byte) (q : Quad) : Quad := ⟨f q.b0, f q.b1, f q.b2, f q.b3⟩

/-- Column `c`, the group `X[4c..4c+3]` (R13). -/
def Block.col (x : Block) : Fin 4 → Quad
  | 0 => x.c0
  | 1 => x.c1
  | 2 => x.c2
  | 3 => x.c3

/-- The block with column `j` replaced. -/
def Block.setCol (x : Block) (j : Fin 4) (q : Quad) : Block :=
  match j with
  | 0 => { x with c0 := q }
  | 1 => { x with c1 := q }
  | 2 => { x with c2 := q }
  | 3 => { x with c3 := q }

/-- The column of byte index `i = 4c + r` (R13). -/
def colOf (i : Fin 16) : Fin 4 := ⟨i.val / 4, by omega⟩

/-- The row of byte index `i = 4c + r` (R13). -/
def rowOf (i : Fin 16) : Fin 4 := ⟨i.val % 4, by omega⟩

/-- The byte index of row `r`, column `c` (R13): `4c + r`. -/
def byteIndex (r c : Fin 4) : Fin 16 := ⟨4 * c.val + r.val, by omega⟩

/-- `X[i]` (R13). -/
def Block.get (x : Block) (i : Fin 16) : Byte := (x.col (colOf i)).get (rowOf i)

/-- The block whose byte `i` is `f i`. -/
def Block.ofFn (f : Fin 16 → Byte) : Block :=
  ⟨Quad.ofFn fun r => f (byteIndex r 0), Quad.ofFn fun r => f (byteIndex r 1),
    Quad.ofFn fun r => f (byteIndex r 2), Quad.ofFn fun r => f (byteIndex r 3)⟩

/-- `KS[i]` (R25). -/
def KeyTable.get (t : KeyTable) : Fin 11 → Block
  | 0 => t.k0
  | 1 => t.k1
  | 2 => t.k2
  | 3 => t.k3
  | 4 => t.k4
  | 5 => t.k5
  | 6 => t.k6
  | 7 => t.k7
  | 8 => t.k8
  | 9 => t.k9
  | 10 => t.k10

/-- The table with entry `i` replaced. -/
def KeyTable.set (t : KeyTable) (i : Fin 11) (k : Block) : KeyTable :=
  match i with
  | 0 => { t with k0 := k }
  | 1 => { t with k1 := k }
  | 2 => { t with k2 := k }
  | 3 => { t with k3 := k }
  | 4 => { t with k4 := k }
  | 5 => { t with k5 := k }
  | 6 => { t with k6 := k }
  | 7 => { t with k7 := k }
  | 8 => { t with k8 := k }
  | 9 => { t with k9 := k }
  | 10 => { t with k10 := k }

namespace Machine

/-- `pack(b0, b1, b2, b3)` (R14): the byte with the lowest index in bits [31:24]. -/
def pack (q : Quad) : Word :=
  (q.b0.setWidth 32 <<< 24) ||| (q.b1.setWidth 32 <<< 16) ||| (q.b2.setWidth 32 <<< 8) ||| q.b3.setWidth 32

/-- `unpack(v)` (R14). -/
def unpack (v : Word) : Quad :=
  ⟨v.extractLsb' 24 8, v.extractLsb' 16 8, v.extractLsb' 8 8, v.extractLsb' 0 8⟩

/-- The round index an operand P names, if it is in 0..9 (R76, R124, R125). -/
def roundIndex (p : Nat) : Option (Fin 10) := if h : p < 10 then some ⟨p, h⟩ else none

/-- The range P..Q is legal (R76, R103): `end > start`, and `end` is a valid index 0..15. -/
def rangeLegal (p q : Nat) : Bool := p < q && q < 16

/-- The error a command's operands raise, if they lie outside its domain (R76, the checks of R183 after decoding). -/
def domainError : Instr → Option ErrCode
  | .addrc p => if (roundIndex p).isSome then none else some .roundRange
  | .keyexp p => if (roundIndex p).isSome then none else some .roundRange
  | .subrng p q => if rangeLegal p q then none else some .rangeBounds
  | .gmul _ _ => none
  | .sbyte _ => none
  | .rotw => none
  | .subw => none
  | .keysched => none
  | .shrows => none
  | .mixcol => none
  | .addrk => none
  | .subst => none
  | .encrypt => none

end Machine

end Sys2Proof
end

