-- ==== Sys2Proof/Machine/Flags.lean ====
section
/-! DEFINITION. STATUS and every change of it that the spec gives: its bus word and its W1C write (10_state.md rule
R28), the BUSY and DONE transitions (rules R30, R31), and the recording of an error (60_exceptions.md rules R180,
R181). The core has no other flags (rule R34). -/

namespace Sys2Proof.Machine

/-- The 4-bit ERRCODE of each cause (R180). -/
def ErrCode.bits : ErrCode → BitVec 4
  | .noError => 0
  | .illegalCmd => 1
  | .roundRange => 2
  | .rangeBounds => 3
  | .busyWrite => 4

/-- One status bit as a bus word. -/
def bitWord (b : Bool) : Word := if b then 1 else 0

/-- STATUS as it reads (R28): `BUSY | DONE<<1 | ERR<<2 | ERRCODE<<4`. -/
def statusWord (s : State) : Word :=
  bitWord s.busy ||| (bitWord s.done <<< 1) ||| (bitWord s.err <<< 2) ||| (s.errcode.bits.setWidth 32 <<< 4)

/-- DONE <- 0. -/
def State.clearDone (s : State) : State := { s with done := false }

/-- DONE <- 1. -/
def State.setDone (s : State) : State := { s with done := true }

/-- `ERR <- 0; ERRCODE <- 0` (R28, R185). The fault mark stays (R198). -/
def State.clearError (s : State) : State := { s with err := false, errcode := .noError }

/-- `StatusWrite(v)` (R28): DONE and ERR are W1C, every other bit of v is ignored. -/
def statusWrite (v : Word) (s : State) : State :=
  let s1 := if v.getLsbD 1 then s.clearDone else s
  if v.getLsbD 2 then s1.clearError else s1

/-- Recording an error (R181): the first code since the last clear is kept, and the model fault mark is set (R198). -/
def State.recordError (s : State) (code : ErrCode) : State :=
  { s with errcode := if s.err then s.errcode else code, err := true, faultMark := true }

end Sys2Proof.Machine
end

