-- ==== Sys2Proof/Machine/Ops.lean ====
section
/-! DEFINITION. The named operations on registers and on the pending-command latch, taking an error and returning
from it, and reset. The core has no traps (60_exceptions.md rule R188): `raiseError` is its whole exception entry, and
`State.clearError` (a STATUS write with bit 2 set, rule R185) the return from it. -/

namespace Sys2Proof.Machine

open Sys2Proof

/-- `Y <- v` (R24). -/
def State.setY (s : State) (v : Byte) : State := { s with y := v }

/-- `W <- v` (R23). -/
def State.setW (s : State) (v : Quad) : State := { s with w := v }

/-- `ST <- v` (R21). -/
def State.setSt (s : State) (v : Block) : State := { s with st := v }

/-- `KY <- v` (R22). -/
def State.setKy (s : State) (v : Block) : State := { s with ky := v }

/-- `KS <- v` (R25). -/
def State.setKs (s : State) (v : KeyTable) : State := { s with ks := v }

/-- TAKING AN ERROR, `raise Error(code)` (R15, R181): it records the code in STATUS and changes no other register. It
transfers no control, saves nothing and changes no mode (R188), so the machine goes on. -/
def raiseError (code : ErrCode) (s : State) : State := s.recordError code

/-- An error found at issue while BUSY = 0 (R183): `DONE <- 1; raise Error(code)`. -/
def rejectCommand (code : ErrCode) (s : State) : State := raiseError code s.setDone

/-- An accepted command (R183): `PEND <- v; BUSY <- 1; DONE <- 0`. The next free value says how many Host operations
fall before the Core's step (R60, log 1). -/
def acceptCommand (v : Word) (s : State) : State :=
  { s with pend := some v, busy := true, done := false,
           coreWait := Config.coreDelay s.inst s.draws, draws := s.draws + 1 }

/-- Completion (R31): `PEND <- none; BUSY <- 0; DONE <- 1`. -/
def completeCommand (s : State) : State := { s with pend := none, busy := false, done := true, coreWait := 0 }

/-- Reset (R37, R200): every register to its reset value and PEND to none. The model fault mark stays (R198), and so
does what is not the core's: the Host's own state, the count of free values and which instance this is. -/
def hostReset (s : State) : State :=
  { State.reset with faultMark := s.faultMark, host := s.host, reads := s.reads, draws := s.draws,
                       inst := s.inst }

/-- One more free value is drawn. -/
def State.advanceDraws (s : State) : State := { s with draws := s.draws + 1 }

/-- The Host's remaining operations. -/
def State.setHost (s : State) (ops : List HostOp) : State := { s with host := ops }

/-- What the Host got back from a read, appended to what it has (R66). -/
def State.recordRead (s : State) (r : ReadRecord) : State := { s with reads := s.reads ++ [r] }

/-- One Host operation has taken effect before the Core's step (log 1). -/
def State.tickWait (s : State) : State := { s with coreWait := s.coreWait - 1 }

/-- A command word in the pending-command latch with its Core step due at once, as right after an accepted issue. -/
def latchDue (v : Word) (s : State) : State :=
  { s with pend := some v, busy := true, done := false, coreWait := 0 }

end Sys2Proof.Machine
end

