-- ==== Sys2Proof/Machine/KeySchedule.lean ====
section
/-! DEFINITION. The key-schedule expander (42_key_schedule.md): Rcon (rule R120), the recurrence (rule R121), the
sub-steps ROTW, SUBW, ADDRC (rules R122 to R124), KEYEXP (rule R125) and KEYSCHED (rule R126). -/

namespace Sys2Proof.Machine

open Sys2Proof

/-- The Round Constant Table (R120). -/
def rconTable : Vector Byte 10 := #v[0x01, 0x02, 0x04, 0x08, 0x10, 0x20, 0x40, 0x80, 0x1B, 0x36]

/-- `Rcon(i)` for `i` in 0..9 (R120); no other index exists. -/
def rcon (i : Fin 10) : Byte := rconTable[i.val]

/-- `RotWord(w) = (w1, w2, w3, w0)` (R121). -/
def rotWord (w : Quad) : Quad := ⟨w.b1, w.b2, w.b3, w.b0⟩

/-- `SubWord(w)` (R121). -/
def subWord (w : Quad) : Quad := w.map sbox

/-- `AddRcon(w, r)` (R121): into the first byte only. -/
def addRcon (w : Quad) (r : Fin 10) : Quad := { w with b0 := w.b0 ^^^ rcon r }

/-- The g-value `g(r, k)` (R121), of the key's last column. -/
def gValue (r : Fin 10) (k : Block) : Quad := addRcon (subWord (rotWord k.c3)) r

/-- `Expand(r, k)` (R121), left to right: each column depends on the preceding output column. -/
def expandKey (r : Fin 10) (k : Block) : Block :=
  let o0 := k.c0.xor (gValue r k)
  let o1 := o0.xor k.c1
  let o2 := o1.xor k.c2
  let o3 := o2.xor k.c3
  ⟨o0, o1, o2, o3⟩

/-- The Key Schedule Table of a key (R126): `KS[0] = key`, `KS[i] = Expand(i - 1, KS[i-1])`. -/
def keySchedule (k : Block) : KeyTable :=
  let k1 := expandKey 0 k
  let k2 := expandKey 1 k1
  let k3 := expandKey 2 k2
  let k4 := expandKey 3 k3
  let k5 := expandKey 4 k4
  let k6 := expandKey 5 k5
  let k7 := expandKey 6 k6
  let k8 := expandKey 7 k7
  let k9 := expandKey 8 k8
  let k10 := expandKey 9 k9
  ⟨k, k1, k2, k3, k4, k5, k6, k7, k8, k9, k10⟩

/-- ROTW (R122): `W <- RotWord(W)`. -/
def execRotw (s : State) : Host.Outcome State Fault Refusal := .next (s.setW (rotWord s.w))

/-- SUBW (R123): `W[i] <- S(W[i])` for each byte. -/
def execSubw (s : State) : Host.Outcome State Fault Refusal := .next (s.setW (subWord s.w))

/-- ADDRC (R124): ROUND_RANGE if P > 9, else `W[0] <- W[0] ^ Rcon(P)`. -/
def execAddrc (p : Nat) (s : State) : Host.Outcome State Fault Refusal :=
  match roundIndex p with
  | some r => .next (s.setW (addRcon s.w r))
  | none => .next (raiseError .roundRange s)

/-- KEYEXP (R125): ROUND_RANGE if P > 9, else `KY <- Expand(P, KY)`. -/
def execKeyexp (p : Nat) (s : State) : Host.Outcome State Fault Refusal :=
  match roundIndex p with
  | some r => .next (s.setKy (expandKey r s.ky))
  | none => .next (raiseError .roundRange s)

/-- KEYSCHED (R126): the whole table from KY. -/
def execKeysched (s : State) : Host.Outcome State Fault Refusal := .next (s.setKs (keySchedule s.ky))

end Sys2Proof.Machine
end

