-- ==== Sys2Proof/Machine/Gf.lean ====
section
/-! DEFINITION. The GF(2^8) arithmetic unit (40_gf_arithmetic.md): `gmul` (rule R90), `xtime` (rule R92) and GMUL
(rule R91). -/

namespace Sys2Proof.Machine

open Sys2Proof

/-- The doubling step (R90, R92): `((a << 1)[7:0]) ^ (a[7] == 1 ? 0x1B : 0x00)`. -/
def xtime (a : Byte) : Byte := (a <<< 1) ^^^ (if a.getLsbD 7 then 0x1B else 0x00)

/-- `n` rounds of the peasant loop of R90, with accumulator `p`. -/
def gmulLoop : Nat → Byte → Byte → Byte → Byte
  | 0, _, _, p => p
  | n + 1, a, b, p => gmulLoop n (xtime a) (b >>> 1) (if b.getLsbD 0 then p ^^^ a else p)

/-- `gmul(a, b)` (R90): "for each of 8 bits of `b`". -/
def gmul (a b : Byte) : Byte := gmulLoop 8 a b 0x00

/-- GMUL (R91): `Y <- gmul(A, B)`. -/
def execGmul (a b : Byte) (s : State) : Host.Outcome State Fault Refusal := .next (s.setY (gmul a b))

end Sys2Proof.Machine
end

