-- ==== Sys2Proof/Machine/StateTransform.lean ====
section
/-! DEFINITION. The state-transform units (43_state_transform.md): the ShiftRows table and MixColumns matrix (rules R140,
R141), the four transforms (rule R142), and SHROWS, MIXCOL, ADDRK, SUBST (rules R143 to R146). -/

namespace Sys2Proof.Machine

open Sys2Proof

/-- `SR(4c + r) = 4 * ((c + r) mod 4) + r` (R140). -/
def shiftRowsSource (i : Fin 16) : Fin 16 := byteIndex (rowOf i) (colOf i + rowOf i)

/-- `ShiftRows(s)[i] = s[SR(i)]` (R142). -/
def shiftRows (x : Block) : Block := Block.ofFn fun i => x.get (shiftRowsSource i)

/-- The MixColumns matrix (R141). -/
def mixMatrix : Fin 4 → Fin 4 → Byte
  | 0 => Quad.get ⟨2, 3, 1, 1⟩
  | 1 => Quad.get ⟨1, 2, 3, 1⟩
  | 2 => Quad.get ⟨1, 1, 2, 3⟩
  | 3 => Quad.get ⟨3, 1, 1, 2⟩

/-- Row `i` of one mixed column (R142): XOR over j of `gmul(M[i][j], a[j])`. -/
def mixEntry (i : Fin 4) (a : Quad) : Byte :=
  gmul (mixMatrix i 0) a.b0 ^^^ gmul (mixMatrix i 1) a.b1 ^^^ gmul (mixMatrix i 2) a.b2 ^^^ gmul (mixMatrix i 3) a.b3

/-- One mixed column (R142). -/
def mixColumn (a : Quad) : Quad := Quad.ofFn fun i => mixEntry i a

/-- `MixColumns(s)` (R142), column by column. -/
def mixColumns (x : Block) : Block := ⟨mixColumn x.c0, mixColumn x.c1, mixColumn x.c2, mixColumn x.c3⟩

/-- `AddRoundKey(s, k)` (R142): bytewise XOR. -/
def addRoundKey (x k : Block) : Block := ⟨x.c0.xor k.c0, x.c1.xor k.c1, x.c2.xor k.c2, x.c3.xor k.c3⟩

/-- `SubState(s)` (R142). -/
def subState (x : Block) : Block := ⟨x.c0.map sbox, x.c1.map sbox, x.c2.map sbox, x.c3.map sbox⟩

/-- SHROWS (R143): `ST <- ShiftRows(ST)`. -/
def execShrows (s : State) : Host.Outcome State Fault Refusal := .next (s.setSt (shiftRows s.st))

/-- MIXCOL (R144): `ST <- MixColumns(ST)`. -/
def execMixcol (s : State) : Host.Outcome State Fault Refusal := .next (s.setSt (mixColumns s.st))

/-- ADDRK (R145): `ST <- AddRoundKey(ST, KY)`. -/
def execAddrk (s : State) : Host.Outcome State Fault Refusal := .next (s.setSt (addRoundKey s.st s.ky))

/-- SUBST (R146): `ST <- SubState(ST)`. -/
def execSubst (s : State) : Host.Outcome State Fault Refusal := .next (s.setSt (subState s.st))

end Sys2Proof.Machine
end

