-- ==== Sys2Proof/Machine/Pipeline.lean ====
section
/-! DEFINITION. The cipher pipeline (44_cipher_pipeline.md): ENCRYPT (rule R160), its 11 stages in one step (rule R161). -/

namespace Sys2Proof.Machine

open Sys2Proof

/-- ENCRYPT's internal temporaries (R35, R160): the working state, the working key, and the table built so far. -/
structure Working where
  s : Block
  ck : Block
  ks : KeyTable
deriving DecidableEq, Repr

/-- Steps 1 and 2 of R160 (stage 0): `ks[0] <- ck` and the first AddRoundKey. The temporary table starts with `key` in
every entry; entries 1 to 10 are overwritten by the ten rounds. -/
def encryptStart (plain key : Block) : Working :=
  ⟨addRoundKey plain key, key, ⟨key, key, key, key, key, key, key, key, key, key, key⟩⟩

/-- The key step of a round (R160): `ck <- Expand(r, ck); ks[r+1] <- ck; s <- AddRoundKey(s, ck)`. -/
def keyStep (r : Fin 10) (x : Working) : Working :=
  let ck := expandKey r x.ck
  ⟨addRoundKey x.s ck, ck, x.ks.set r.succ ck⟩

/-- One iteration of step 3 of R160 (stages 1 to 9). -/
def fullRound (x : Working) (r : Fin 10) : Working :=
  keyStep r { x with s := mixColumns (shiftRows (subState x.s)) }

/-- Step 4 of R160 (stage 10): no MixColumns. -/
def finalRound (x : Working) : Working := keyStep 9 { x with s := shiftRows (subState x.s) }

/-- The round indices 0..8 of step 3 of R160. -/
def fullRoundIndices : List (Fin 10) := [0, 1, 2, 3, 4, 5, 6, 7, 8]

/-- The whole pipeline (R160). -/
def encryptBlock (plain key : Block) : Working :=
  finalRound (fullRoundIndices.foldl fullRound (encryptStart plain key))

/-- ENCRYPT (R160): `ST <- s; KS <- ks`. KY, W and Y are not written. -/
def execEncrypt (s : State) : Host.Outcome State Fault Refusal :=
  .next ((s.setSt (encryptBlock s.st s.ky).s).setKs (encryptBlock s.st s.ky).ks)

end Sys2Proof.Machine
end

