-- ==== Sys2Proof/Machine/Dispatch.lean ====
section
/-! DEFINITION. The meaning of every command: one arm per constructor of Instr, each a direct call of its meaning. -/

namespace Sys2Proof.Machine

open Sys2Proof

def exec (i : Instr) (s : State) : Host.Outcome State Fault Refusal :=
  match i with
  | .gmul a b => Sys2Proof.Machine.execGmul a b s
  | .sbyte a => Sys2Proof.Machine.execSbyte a s
  | .subrng p q => Sys2Proof.Machine.execSubrng p q s
  | .rotw => Sys2Proof.Machine.execRotw s
  | .subw => Sys2Proof.Machine.execSubw s
  | .addrc p => Sys2Proof.Machine.execAddrc p s
  | .keyexp p => Sys2Proof.Machine.execKeyexp p s
  | .keysched => Sys2Proof.Machine.execKeysched s
  | .shrows => Sys2Proof.Machine.execShrows s
  | .mixcol => Sys2Proof.Machine.execMixcol s
  | .addrk => Sys2Proof.Machine.execAddrk s
  | .subst => Sys2Proof.Machine.execSubst s
  | .encrypt => Sys2Proof.Machine.execEncrypt s

end Sys2Proof.Machine
end

