-- ==== Sys2Proof/WellFormed.lean ====
section
/-! DEFINITION. A command is well formed when each natural operand fits its 4-bit field (30_encoding.md rules R71 and
R82). An operand that fits its field but lies outside the command's domain (rule R76) IS well formed: it decodes,
and it is refused by the core at issue, not by the encoding. -/

namespace Sys2Proof

/-- P and Q are "naturals 0 to 15" (R71). -/
def fitsNibble (n : Nat) : Bool := n < 16

/-- Every operand fits its field. -/
def Instr.wf : Instr → Bool
  | .subrng p q => fitsNibble p && fitsNibble q
  | .addrc p => fitsNibble p
  | .keyexp p => fitsNibble p
  | .gmul _ _ => true
  | .sbyte _ => true
  | .rotw => true
  | .subw => true
  | .keysched => true
  | .shrows => true
  | .mixcol => true
  | .addrk => true
  | .subst => true
  | .encrypt => true

end Sys2Proof
end

