-- ==== Sys2Proof/Decode.lean ====
section
/-! DEFINITION. The command encoding of 30_encoding.md: the fields of a command word (R70), the 13 match and mask rows
(R73), the total decoder (R74), and the encoder of R82. -/

namespace Sys2Proof

/-- `OP = v[31:24]` (R70). -/
def opField (v : Word) : BitVec 8 := v.extractLsb' 24 8

/-- `P = v[23:20]` (R70), as a natural (R71). -/
def pField (v : Word) : Nat := (v.extractLsb' 20 4).toNat

/-- `Q = v[19:16]` (R70), as a natural (R71). -/
def qField (v : Word) : Nat := (v.extractLsb' 16 4).toNat

/-- `A = v[15:8]` (R70). -/
def aField (v : Word) : Byte := v.extractLsb' 8 8

/-- `B = v[7:0]` (R70). -/
def bField (v : Word) : Byte := v.extractLsb' 0 8

/-- One row of the table of R73. -/
structure OpcodeRow where
  matchBits : Word
  mask : Word
  build : Word → Instr

/-- The row selects the word (R73): `(v & mask) == match`. -/
def rowMatches (r : OpcodeRow) (v : Word) : Bool := v &&& r.mask == r.matchBits

/-- The 13 rows of R73, each with the operands its free bits give. -/
def opcodeRows : List OpcodeRow :=
  [ ⟨0x01000000, 0xFFFF0000, fun v => .gmul (aField v) (bField v)⟩,
    ⟨0x02000000, 0xFFFF00FF, fun v => .sbyte (aField v)⟩,
    ⟨0x03000000, 0xFF00FFFF, fun v => .subrng (pField v) (qField v)⟩,
    ⟨0x04000000, 0xFFFFFFFF, fun _ => .rotw⟩,
    ⟨0x05000000, 0xFFFFFFFF, fun _ => .subw⟩,
    ⟨0x06000000, 0xFF0FFFFF, fun v => .addrc (pField v)⟩,
    ⟨0x07000000, 0xFF0FFFFF, fun v => .keyexp (pField v)⟩,
    ⟨0x08000000, 0xFFFFFFFF, fun _ => .keysched⟩,
    ⟨0x09000000, 0xFFFFFFFF, fun _ => .shrows⟩,
    ⟨0x0A000000, 0xFFFFFFFF, fun _ => .mixcol⟩,
    ⟨0x0B000000, 0xFFFFFFFF, fun _ => .addrk⟩,
    ⟨0x0C000000, 0xFFFFFFFF, fun _ => .subst⟩,
    ⟨0x0D000000, 0xFFFFFFFF, fun _ => .encrypt⟩ ]

/-- Why a word is `Illegal` (R75). Both reasons raise the one error ILLEGAL_CMD at issue. -/
inductive Illegal where
  /-- OP is 0x00 or in 0x0E..0xFF. -/
  | unassignedOpcode
  /-- OP is assigned, and a field the opcode does not use is nonzero. -/
  | reservedNonzero
deriving DecidableEq, Repr

/-- The reason a word that no row matches is illegal (R75). -/
def illegalReason (v : Word) : Illegal :=
  if opField v = 0x00 ∨ 0x0E ≤ opField v then .unassignedOpcode else .reservedNonzero

/-- `decode(v)` of R74: total on 32-bit words. -/
def decode (v : Word) : Except Illegal Instr :=
  match opcodeRows.find? (fun r => rowMatches r v) with
  | some r => .ok (r.build v)
  | none => .error (illegalReason v)

/-- The command word with the given fields (R70). -/
def commandWord (op : BitVec 8) (p q : Nat) (a b : Byte) : Word :=
  op ++ BitVec.ofNat 4 p ++ BitVec.ofNat 4 q ++ a ++ b

/-- `encode` of R82: each operand in its field of R70, every other field zero. -/
def encode : Instr → Word
  | .gmul a b => commandWord 0x01 0 0 a b
  | .sbyte a => commandWord 0x02 0 0 a 0
  | .subrng p q => commandWord 0x03 p q 0 0
  | .rotw => commandWord 0x04 0 0 0 0
  | .subw => commandWord 0x05 0 0 0 0
  | .addrc p => commandWord 0x06 p 0 0 0
  | .keyexp p => commandWord 0x07 p 0 0 0
  | .keysched => commandWord 0x08 0 0 0 0
  | .shrows => commandWord 0x09 0 0 0 0
  | .mixcol => commandWord 0x0A 0 0 0 0
  | .addrk => commandWord 0x0B 0 0 0 0
  | .subst => commandWord 0x0C 0 0 0 0
  | .encrypt => commandWord 0x0D 0 0 0 0

/-- The command word that the opcode table's bits `w` give: every command is exactly one 32-bit word (R78), and bits
at or above `nbits` are zero. -/
def tableWord (nbits w : Nat) : Word := BitVec.ofNat 32 (w % 2 ^ nbits)

/-- What the decoder reads from the instruction whose bits, numbered as spec/opcode_table.json numbers them, are `w`. -/
def decodeTableWord (nbits w : Nat) : Option Instr :=
  match decode (tableWord nbits w) with
  | .ok i => some i
  | .error _ => none

end Sys2Proof
end

