-- ==== Sys2Proof/Machine/Bus.lean ====
section
/-! DEFINITION. The register bus (20_memory.md): the register map (10_state.md rule R20), BusRead (rule R51), BusWrite (rule
R52), Issue (60_exceptions.md rule R183), and the write sets of the busy window (70_reset_and_hazards.md rules R204,
R205). -/

namespace Sys2Proof.Machine

open Sys2Proof

/-- The names of the register map (R20). -/
inductive RegName where
  | cmd
  | status
  | y
  | w
  /-- `STj`. -/
  | st (j : Fin 4)
  /-- `KYj`. -/
  | ky (j : Fin 4)
  /-- `KSi_j`. -/
  | ks (i : Fin 11) (j : Fin 4)
deriving DecidableEq, Repr

/-- The word address of a register name (R20). -/
def regAddr : RegName → BusAddr
  | .cmd => 0x00
  | .status => 0x01
  | .y => 0x02
  | .w => 0x03
  | .st j => BitVec.ofNat 6 (0x04 + j.val)
  | .ky j => BitVec.ofNat 6 (0x08 + j.val)
  | .ks i j => BitVec.ofNat 6 (0x10 + 4 * i.val + j.val)

/-- The register name at a word address (R20); `none` for the reserved words 0x0C..0x0F and 0x3C..0x3F. -/
def regAt (a : BusAddr) : Option RegName :=
  let n := a.toNat
  if n = 0x00 then some .cmd
  else if n = 0x01 then some .status
  else if n = 0x02 then some .y
  else if n = 0x03 then some .w
  else if h : 0x04 ≤ n ∧ n ≤ 0x07 then some (.st ⟨n - 0x04, by omega⟩)
  else if h : 0x08 ≤ n ∧ n ≤ 0x0B then some (.ky ⟨n - 0x08, by omega⟩)
  else if h : 0x10 ≤ n ∧ n ≤ 0x3B then some (.ks ⟨(n - 0x10) / 4, by omega⟩ ⟨(n - 0x10) % 4, by omega⟩)
  else none

/-- The current value of the word at an address (R51, without its one exception). CMD and the reserved words read 0. -/
def busPeek (a : BusAddr) (s : State) : Word :=
  match regAt a with
  | some .cmd => 0
  | some .status => statusWord s
  | some .y => s.y.setWidth 32
  | some .w => pack s.w
  | some (.st j) => pack (s.st.col j)
  | some (.ky j) => pack (s.ky.col j)
  | some (.ks i j) => pack ((s.ks.get i).col j)
  | none => 0

/-- The words of Y (R205). -/
def isYWord (a : BusAddr) : Bool := a == 0x02

/-- The words of W (R205). -/
def isWWord (a : BusAddr) : Bool := a == 0x03

/-- The words ST0..ST3 (R205). -/
def isStWord (a : BusAddr) : Bool := 0x04 ≤ a && a ≤ 0x07

/-- The words KY0..KY3 (R205). -/
def isKyWord (a : BusAddr) : Bool := 0x08 ≤ a && a ≤ 0x0B

/-- The words of KS (R205). -/
def isKsWord (a : BusAddr) : Bool := 0x10 ≤ a && a ≤ 0x3B

/-- The write set of a command (R205). -/
def writeSet : Instr → BusAddr → Bool
  | .gmul _ _, a => isYWord a
  | .sbyte _, a => isYWord a
  | .subrng _ _, a => isStWord a
  | .rotw, a => isWWord a
  | .subw, a => isWWord a
  | .addrc _, a => isWWord a
  | .keyexp _, a => isKyWord a
  | .keysched, a => isKsWord a
  | .shrows, a => isStWord a
  | .mixcol, a => isStWord a
  | .addrk, a => isStWord a
  | .subst, a => isStWord a
  | .encrypt, a => isStWord a || isKsWord a

/-- The word at `a` is one that the pending command writes (R204). -/
def pendingWrites (s : State) (a : BusAddr) : Bool :=
  match s.pend with
  | none => false
  | some v =>
    match decode v with
    | .ok i => writeSet i a
    | .error _ => false

/-- `BusRead(a)` (R51, R204): the current value, or a fresh free value while BUSY = 1 and the pending command writes the
word (log 2). -/
def busRead (a : BusAddr) (s : State) : Word × State :=
  if s.busy && pendingWrites s a then (Config.busyRead s.inst s.draws, s.advanceDraws) else (busPeek a s, s)

/-- `Issue(v)` (R183): the checks in the order of R186, then acceptance. -/
def issue (v : Word) (s : State) : State :=
  if s.busy then raiseError .busyWrite s
  else
    match decode v with
    | .error _ => rejectCommand .illegalCmd s
    | .ok i =>
      match domainError i with
      | some code => rejectCommand code s
      | none => acceptCommand v s

/-- A write to a data register (R52, R184): BUSY_WRITE while BUSY = 1, else the register takes the value. -/
def dataWrite (s written : State) : State := if s.busy then raiseError .busyWrite s else written

/-- `BusWrite(a, v)` (R52). Writes to Y, KS and the reserved words have no effect. -/
def busWrite (a : BusAddr) (v : Word) (s : State) : State :=
  match regAt a with
  | some .cmd => issue v s
  | some .status => statusWrite v s
  | some .y => s
  | some .w => dataWrite s (s.setW (unpack v))
  | some (.st j) => dataWrite s (s.setSt (s.st.setCol j (unpack v)))
  | some (.ky j) => dataWrite s (s.setKy (s.ky.setCol j (unpack v)))
  | some (.ks _ _) => s
  | none => s

end Sys2Proof.Machine
end

