-- ==== Sys2Proof/Machine/HostAgent.lean ====
section
/-! DEFINITION. The Host agent (20_memory.md rules R55, R60, R66, R67): what each of its operations does. A platform access
is translated to a bus access of this core, or refused by name (rule R55, log 7). -/

namespace Sys2Proof.Machine

open Sys2Proof

/-- The word address that a platform access of `bytes` bytes at `byteAddr` reaches in an instance (R55): word `a` lies at
byte address `CORE_BASE + 4a`, each instance with a CORE_BASE of its own (R194, log 7). Anything else reaches the core
through no rule and is refused. -/
def platformWord (inst byteAddr bytes : Nat) : Except Refusal BusAddr :=
  if bytes ≠ 4 then .error .platformWidth
  else if byteAddr % 4 ≠ 0 then .error .platformMisaligned
  else if byteAddr < Config.coreBase inst ∨ Config.coreBase inst + 256 ≤ byteAddr then .error .platformOutsideWindow
  else .ok (BitVec.ofNat 6 ((byteAddr - Config.coreBase inst) / 4))

/-- A bus read whose word the Host gets back (R66). -/
def hostRead (a : BusAddr) (name : Option (List Char)) (s : State) : State :=
  (busRead a s).2.recordRead ⟨a, (busRead a s).1, name⟩

/-- The name that R83 gives the word each poll of WAIT reads: `RD STATUS -> s`. -/
def waitName : Option (List Char) := some ['s']

/-- One poll of WAIT (R83): `RD STATUS -> s`, and go round again if `s[0] == 1`. -/
def hostPoll (s : State) : State :=
  if (busRead 0x01 s).1.getLsbD 0 then (hostRead 0x01 waitName s).setHost (.wait :: s.host)
  else hostRead 0x01 waitName s

/-- What one Host operation does (R66), the operation itself already taken off the Host's program. -/
def hostPerform (op : HostOp) (s : State) : Host.Outcome State Fault Refusal :=
  match op with
  | .write a v => .next (busWrite a v s)
  | .read a name => .next (hostRead a name s)
  | .wait => .next (hostPoll s)
  | .assertReset => .next (hostReset s)
  | .platformRead byteAddr bytes =>
    match platformWord s.inst byteAddr bytes with
    | .ok a => .next (hostRead a none s)
    | .error r => .refused r
  | .platformWrite byteAddr bytes v =>
    match platformWord s.inst byteAddr bytes with
    | .ok a => .next (busWrite a v s)
    | .error r => .refused r

/-- The Host's move: its next operation, which uses up one of the operations that fall before the Core's step (log 1).
With no operation left the Host has no move, and the state stays as it is (R67, log 19). -/
def hostStep (s : State) : Host.Outcome State Fault Refusal :=
  match s.host with
  | [] => .next s
  | op :: rest => hostPerform op (s.tickWait.setHost rest)

end Sys2Proof.Machine
end

