-- ==== Sys2Proof/Machine/Agents.lean ====
section
/-! DEFINITION. The Core agent and which agent moves (00_scope.md rule R19, 10_state.md rule R31, 20_memory.md rule R60,
70_reset_and_hazards.md rule R206). -/

namespace Sys2Proof.Machine

open Sys2Proof

/-- The Core moves next: a command is pending (R31), and either every Host operation that falls before its step has
taken effect, or the Host has no operation left (R60, R206, log 1). -/
def coreMoves (s : State) : Bool := s.pend.isSome && (s.coreWait == 0 || s.host.isEmpty)

/-- A command's rule followed by its completion (R31). -/
def completing : Host.Outcome State Fault Refusal → Host.Outcome State Fault Refusal
  | .next t => .next (completeCommand t)
  | .fault r => .fault r
  | .refused r => .refused r

/-- The Core's step (R31): the rule of the command in PEND as one atomic transition, then completion. PEND never holds
a word that does not decode (log 5). -/
def coreStep (s : State) : Host.Outcome State Fault Refusal :=
  match s.pend with
  | none => .next s
  | some v =>
    match decode v with
    | .error _ => .fault .undecodablePending
    | .ok i => completing (exec i s)

end Sys2Proof.Machine
end

