-- ==== Sys2Proof/Machine/Step.lean ====
section
/-! DEFINITION. One step of the machine: the Core's step or one Host operation (20_memory.md rule R60). -/

namespace Sys2Proof.Machine

open Sys2Proof

/-- One step: every execution is one total order of Host accesses and Core steps (R60). -/
def step (s : State) : Host.Outcome State Fault Refusal := if coreMoves s then coreStep s else hostStep s

/-- The state with the command word in the pending-command latch, its Core step due: the very next step runs it. It
stands for the Host's accepted CMD write (log 3). -/
def State.withFetchWord (s : State) (nbits w : Nat) : State := latchDue (tableWord nbits w) s

end Sys2Proof.Machine
end

