-- ==== Sys2Proof/Machine/Assembler.lean ====
section
/-! DEFINITION. The assembler of 30_encoding.md rules R82 and R83: the text of a host program, line by line, its operands
checked against their fields and never truncated, and each pseudo-instruction's expansion into Host operations. A text is
a list of characters; where the rules leave the spelling open (white space, the letters of hex digits, the byte lists of
LD16), log 14 says what is taken. -/

namespace Sys2Proof.Machine

open Sys2Proof

/-- A word of the text. -/
abbrev Token := List Char

/-- Why a line is an assembly error (R82). -/
inductive AsmError where
  /-- The first word is no line form of R82 or R83. -/
  | unknownForm
  /-- A mnemonic that R72 does not list. -/
  | unknownMnemonic
  /-- No register name of R82, or one the form does not take. -/
  | unknownRegister
  /-- Neither decimal nor hex with `0x`. -/
  | badNumber
  /-- "A value that does not fit its field is an assembly error and is not truncated." -/
  | operandTooLarge
  /-- Too many or too few operands, or a comma missing or out of place. -/
  | wrongOperands
deriving DecidableEq, Repr

/-- A line of a host program with its operands as numbers not yet checked (R82, R83). -/
inductive AsmLine where
  /-- `WR reg, imm32`. -/
  | wr (r : RegName) (v : Nat)
  /-- `RD reg [-> name]`. -/
  | rd (r : RegName) (name : Option Token)
  /-- `CMD command`. -/
  | cmd (mnemonic : Token) (operands : List Nat)
  /-- `WAIT`. -/
  | wait
  /-- `CLRDONE`. -/
  | clrDone
  /-- `CLRERR`. -/
  | clrErr
  /-- `LD16 ST, b0..b15`. -/
  | ldSt (bytes : List Nat)
  /-- `LD16 KY, b0..b15`. -/
  | ldKy (bytes : List Nat)
  /-- `RD16 ST`. -/
  | rdSt (name : Option Token)
  /-- `RD16 KY`. -/
  | rdKy (name : Option Token)
  /-- `RD16 KSi`. -/
  | rdKs (i : Fin 11) (name : Option Token)
  /-- `DO command`. -/
  | doCmd (mnemonic : Token) (operands : List Nat)
deriving DecidableEq, Repr

/-- A byte operand, or an assembly error (R82). -/
def asmByte (n : Nat) : Except AsmError Byte :=
  if n < 256 then .ok (BitVec.ofNat 8 n) else .error .operandTooLarge

/-- An operand of a 4-bit field, or an assembly error (R82). -/
def asmNibble (n : Nat) : Except AsmError Nat := if fitsNibble n then .ok n else .error .operandTooLarge

/-- A 32-bit immediate, or an assembly error (R82). -/
def asmWord (n : Nat) : Except AsmError Word :=
  if n < 2 ^ 32 then .ok (BitVec.ofNat 32 n) else .error .operandTooLarge

/-- The command with one byte operand. -/
def asmOneByte (f : Byte → Instr) : List Nat → Except AsmError Instr
  | [a] => (asmByte a).map f
  | _ => .error .wrongOperands

/-- The command with one 4-bit operand. -/
def asmOneNibble (f : Nat → Instr) : List Nat → Except AsmError Instr
  | [p] => (asmNibble p).map f
  | _ => .error .wrongOperands

/-- The command with two byte operands. -/
def asmTwoBytes (f : Byte → Byte → Instr) : List Nat → Except AsmError Instr
  | [a, b] =>
    match asmByte a, asmByte b with
    | .ok x, .ok y => .ok (f x y)
    | .error e, _ => .error e
    | _, .error e => .error e
  | _ => .error .wrongOperands

/-- The command with two 4-bit operands. -/
def asmTwoNibbles (f : Nat → Nat → Instr) : List Nat → Except AsmError Instr
  | [p, q] =>
    match asmNibble p, asmNibble q with
    | .ok x, .ok y => .ok (f x y)
    | .error e, _ => .error e
    | _, .error e => .error e
  | _ => .error .wrongOperands

/-- The command without operands. -/
def asmNoOperand (i : Instr) : List Nat → Except AsmError Instr
  | [] => .ok i
  | _ => .error .wrongOperands

/-- The mnemonics of R72 with the operands R82 gives each. -/
def mnemonicTable : List (Token × (List Nat → Except AsmError Instr)) :=
  [ (['G', 'M', 'U', 'L'], asmTwoBytes .gmul),
    (['S', 'B', 'Y', 'T', 'E'], asmOneByte .sbyte),
    (['S', 'U', 'B', 'R', 'N', 'G'], asmTwoNibbles .subrng),
    (['R', 'O', 'T', 'W'], asmNoOperand .rotw),
    (['S', 'U', 'B', 'W'], asmNoOperand .subw),
    (['A', 'D', 'D', 'R', 'C'], asmOneNibble .addrc),
    (['K', 'E', 'Y', 'E', 'X', 'P'], asmOneNibble .keyexp),
    (['K', 'E', 'Y', 'S', 'C', 'H', 'E', 'D'], asmNoOperand .keysched),
    (['S', 'H', 'R', 'O', 'W', 'S'], asmNoOperand .shrows),
    (['M', 'I', 'X', 'C', 'O', 'L'], asmNoOperand .mixcol),
    (['A', 'D', 'D', 'R', 'K'], asmNoOperand .addrk),
    (['S', 'U', 'B', 'S', 'T'], asmNoOperand .subst),
    (['E', 'N', 'C', 'R', 'Y', 'P', 'T'], asmNoOperand .encrypt) ]

/-- `<command>` of R82: a mnemonic with its operands. -/
def asmCommand (mnemonic : Token) (operands : List Nat) : Except AsmError Instr :=
  match mnemonicTable.find? (fun row => row.1 == mnemonic) with
  | some row => row.2 operands
  | none => .error .unknownMnemonic

/-- The four bus writes of LD16 (R83): `reg j` takes `pack(b(4j), ..., b(4j+3))`. -/
def loadBlock (reg : Fin 4 → RegName) (x : Block) : List HostOp :=
  [ .write (regAddr (reg 0)) (pack x.c0), .write (regAddr (reg 1)) (pack x.c1),
    .write (regAddr (reg 2)) (pack x.c2), .write (regAddr (reg 3)) (pack x.c3) ]

/-- The four bus reads of RD16 (R83). -/
def readBlock (reg : Fin 4 → RegName) (name : Option Token) : List HostOp :=
  [ .read (regAddr (reg 0)) name, .read (regAddr (reg 1)) name,
    .read (regAddr (reg 2)) name, .read (regAddr (reg 3)) name ]

/-- Sixteen byte operands as a block, or an assembly error. -/
def asmBlock (bytes : List Nat) : Except AsmError Block :=
  if bytes.all (fun n => n < 256) then
    match bytes with
    | [b0, b1, b2, b3, b4, b5, b6, b7, b8, b9, b10, b11, b12, b13, b14, b15] =>
      .ok ⟨⟨BitVec.ofNat 8 b0, BitVec.ofNat 8 b1, BitVec.ofNat 8 b2, BitVec.ofNat 8 b3⟩,
        ⟨BitVec.ofNat 8 b4, BitVec.ofNat 8 b5, BitVec.ofNat 8 b6, BitVec.ofNat 8 b7⟩,
        ⟨BitVec.ofNat 8 b8, BitVec.ofNat 8 b9, BitVec.ofNat 8 b10, BitVec.ofNat 8 b11⟩,
        ⟨BitVec.ofNat 8 b12, BitVec.ofNat 8 b13, BitVec.ofNat 8 b14, BitVec.ofNat 8 b15⟩⟩
    | _ => .error .wrongOperands
  else .error .operandTooLarge

/-- The 16 bytes that RD16 gets back (R83): its four words, which are the last four that the Host has read, unpacked by
R14; `none` where the last four reads are not those of `reg 0` to `reg 3`. -/
def rd16Bytes (reg : Fin 4 → RegName) (reads : List ReadRecord) : Option Block :=
  match reads.drop (reads.length - 4) with
  | [r0, r1, r2, r3] =>
    if r0.addr = regAddr (reg 0) ∧ r1.addr = regAddr (reg 1) ∧ r2.addr = regAddr (reg 2) ∧ r3.addr = regAddr (reg 3) then
      some ⟨unpack r0.value, unpack r1.value, unpack r2.value, unpack r3.value⟩
    else none
  | _ => none

/-- The 16 bytes called `name` by an `RD16 reg -> name` (R82, R83, log 14): of the reads with that name the last four. -/
def rd16Named (reg : Fin 4 → RegName) (name : Token) (reads : List ReadRecord) : Option Block :=
  rd16Bytes reg (reads.filter fun r => r.name == some name)

/-- The Host operations of a line (R82, R83). -/
def expandLine : AsmLine → Except AsmError (List HostOp)
  | .wr r v => (asmWord v).map fun x => [.write (regAddr r) x]
  | .rd r name => .ok [.read (regAddr r) name]
  | .cmd m ops => (asmCommand m ops).map fun i => [.write 0x00 (encode i)]
  | .wait => .ok [.wait]
  | .clrDone => .ok [.write 0x01 0x00000002]
  | .clrErr => .ok [.write 0x01 0x00000004]
  | .ldSt bytes => (asmBlock bytes).map (loadBlock .st)
  | .ldKy bytes => (asmBlock bytes).map (loadBlock .ky)
  | .rdSt name => .ok (readBlock .st name)
  | .rdKy name => .ok (readBlock .ky name)
  | .rdKs i name => .ok (readBlock (.ks i) name)
  | .doCmd m ops => (asmCommand m ops).map fun i => [.write 0x00 (encode i), .wait]

/-- The value of a digit in the given base. -/
def digitValue (base : Nat) (c : Char) : Option Nat :=
  let n := c.toNat
  let v := if 48 ≤ n ∧ n ≤ 57 then n - 48
    else if 65 ≤ n ∧ n ≤ 70 then n - 55
    else if 97 ≤ n ∧ n ≤ 102 then n - 87
    else base
  if v < base then some v else none

/-- The number the digits spell, onto `acc`. -/
def digitsValue (base : Nat) : List Char → Nat → Option Nat
  | [], acc => some acc
  | c :: cs, acc =>
    match digitValue base c with
    | some d => digitsValue base cs (acc * base + d)
    | none => none

/-- "An operand is decimal, or hex with `0x`" (R82). -/
def parseNumber : Token → Except AsmError Nat
  | [] => .error .badNumber
  | '0' :: 'x' :: d :: ds =>
    match digitsValue 16 (d :: ds) 0 with
    | some n => .ok n
    | none => .error .badNumber
  | t =>
    match digitsValue 10 t 0 with
    | some n => .ok n
    | none => .error .badNumber

/-- The index a token spells in decimal without a superfluous zero, below `bound`. -/
def parseIndex (bound : Nat) (t : Token) : Option (Fin bound) :=
  match t with
  | [] => none
  | ['0'] => if h : 0 < bound then some ⟨0, h⟩ else none
  | '0' :: _ => none
  | _ =>
    match digitsValue 10 t 0 with
    | some n => if h : n < bound then some ⟨n, h⟩ else none
    | none => none

/-- `<reg>` of R82. -/
def parseReg (t : Token) : Except AsmError RegName :=
  match t with
  | ['C', 'M', 'D'] => .ok .cmd
  | ['S', 'T', 'A', 'T', 'U', 'S'] => .ok .status
  | ['Y'] => .ok .y
  | ['W'] => .ok .w
  | ['S', 'T', j] => ((parseIndex 4 [j]).map RegName.st).elim (.error .unknownRegister) .ok
  | ['K', 'Y', j] => ((parseIndex 4 [j]).map RegName.ky).elim (.error .unknownRegister) .ok
  | ['K', 'S', i, '_', j] =>
    match parseIndex 11 [i], parseIndex 4 [j] with
    | some x, some y => .ok (.ks x y)
    | _, _ => .error .unknownRegister
  | ['K', 'S', i, i', '_', j] =>
    match parseIndex 11 [i, i'], parseIndex 4 [j] with
    | some x, some y => .ok (.ks x y)
    | _, _ => .error .unknownRegister
  | _ => .error .unknownRegister

/-- The words of a line: split at white space, each comma a word of its own, "Comments run from `;` to the end of the
line" (R82). `acc` is the word being read, backwards. -/
def lexLine : List Char → Token → List Token
  | [], acc => if acc.isEmpty then [] else [acc.reverse]
  | c :: cs, acc =>
    let now := if acc.isEmpty then [] else [acc.reverse]
    if c = ';' then now
    else if c = ' ' ∨ c = '\t' ∨ c = '\r' then now ++ lexLine cs []
    else if c = ',' then now ++ [[',']] ++ lexLine cs []
    else lexLine cs (c :: acc)

/-- Operands "separated by commas" (R82). -/
def parseOperands : List Token → Except AsmError (List Nat)
  | [] => .ok []
  | [t] => (parseNumber t).map fun n => [n]
  | t :: [','] :: u :: rest =>
    match parseNumber t, parseOperands (u :: rest) with
    | .ok n, .ok ns => .ok (n :: ns)
    | .error e, _ => .error e
    | _, .error e => .error e
  | _ => .error .wrongOperands

/-- A byte as the programs of 95_test_vectors.md section 3 write it after LD16: two hex digits, without `0x`. -/
def parseHexByte : Token → Except AsmError Nat
  | [h, l] => (digitsValue 16 [h, l] 0).elim (.error .badNumber) .ok
  | _ => .error .badNumber

/-- The byte list of LD16 (log 14): with commas, operands of R82; without, bytes of two hex digits each, as the
programs of 95_test_vectors.md section 3 write them. -/
def parseBytes (ts : List Token) : Except AsmError (List Nat) :=
  if ts.contains [','] then parseOperands ts else ts.mapM parseHexByte

/-- The optional `-> name` of R82. -/
def parseName : List Token → Except AsmError (Option Token)
  | [] => .ok none
  | [['-', '>'], name] => if name = [','] then .error .wrongOperands else .ok (some name)
  | _ => .error .wrongOperands

/-- A mnemonic and its operands. -/
def parseCommand (f : Token → List Nat → AsmLine) : List Token → Except AsmError AsmLine
  | [] => .error .wrongOperands
  | m :: ops => (parseOperands ops).map (f m)

/-- The words of a line as a line form of R82 or R83. -/
def parseWords : List Token → Except AsmError AsmLine
  | ['W', 'R'] :: r :: [','] :: [v] =>
    match parseReg r, parseNumber v with
    | .ok x, .ok n => .ok (.wr x n)
    | .error e, _ => .error e
    | _, .error e => .error e
  | ['R', 'D'] :: r :: rest =>
    match parseReg r, parseName rest with
    | .ok x, .ok name => .ok (.rd x name)
    | .error e, _ => .error e
    | _, .error e => .error e
  | ['C', 'M', 'D'] :: rest => parseCommand .cmd rest
  | ['D', 'O'] :: rest => parseCommand .doCmd rest
  | [['W', 'A', 'I', 'T']] => .ok .wait
  | [['C', 'L', 'R', 'D', 'O', 'N', 'E']] => .ok .clrDone
  | [['C', 'L', 'R', 'E', 'R', 'R']] => .ok .clrErr
  | ['L', 'D', '1', '6'] :: ['S', 'T'] :: [','] :: rest => (parseBytes rest).map .ldSt
  | ['L', 'D', '1', '6'] :: ['K', 'Y'] :: [','] :: rest => (parseBytes rest).map .ldKy
  | ['R', 'D', '1', '6'] :: ['S', 'T'] :: rest => (parseName rest).map .rdSt
  | ['R', 'D', '1', '6'] :: ['K', 'Y'] :: rest => (parseName rest).map .rdKy
  | ['R', 'D', '1', '6'] :: ('K' :: 'S' :: i) :: rest =>
    match parseIndex 11 i, parseName rest with
    | some x, .ok name => .ok (.rdKs x name)
    | none, _ => .error .unknownRegister
    | _, .error e => .error e
  | _ => .error .unknownForm

/-- The Host operations of one line of text; an empty line has none. -/
def assembleLine (line : List Char) : Except AsmError (List HostOp) :=
  match lexLine line [] with
  | [] => .ok []
  | words =>
    match parseWords words with
    | .ok l => expandLine l
    | .error e => .error e

/-- The Host operations of a host program, "a list of lines" (R82); the first assembly error stops it. -/
def assemble : List (List Char) → Except AsmError (List HostOp)
  | [] => .ok []
  | line :: rest =>
    match assembleLine line, assemble rest with
    | .ok ops, .ok more => .ok (ops ++ more)
    | .error e, _ => .error e
    | _, .error e => .error e

/-- A Host program laid before a machine: how a program comes to run (log 3). -/
def State.withProgram (s : State) (ops : List HostOp) : State := s.setHost ops

end Sys2Proof.Machine
end

