-- ==== Sys2Proof/Machine/System.lean ====
section
/-! DEFINITION. Several instances (60_exceptions.md rule R194, OPEN parameter N_CORES): each has its own state, its own
free values (R60, R204) and its own bus window; they share only the constant tables, and one of them moves at a time
(log 8). -/

namespace Sys2Proof.Machine

open Sys2Proof

/-- Instance `k` after reset: it differs from every other only in its number, and so in its free values and its bus
window. -/
def resetInstance (k : Nat) : State := { State.reset with inst := k }

/-- All N_CORES instances after reset. -/
def systemReset : List State := (List.range Config.nCores).map resetInstance

/-- A step of instance `k`; an instance that does not exist has no move. -/
def systemStep (cores : List State) (k : Nat) : Host.Outcome (List State) Fault Refusal :=
  match cores[k]? with
  | none => .next cores
  | some s =>
    match step s with
    | .next t => .next (cores.set k t)
    | .fault r => .fault r
    | .refused r => .refused r

end Sys2Proof.Machine
end

