-- ==== Sys2Proof/Safety.lean ====
section
/-! DEFINITION. What the claims speak of: the invariant of the machine, the end of a run (20_memory.md rule R67), the
Host's duties (rule R66), and running a list of commands. -/

namespace Sys2Proof.Machine

open Sys2Proof

/-- The word decodes to a command whose operands lie in its domain: what Issue accepts (R183). -/
def acceptedWord (v : Word) : Bool :=
  match decode v with
  | .ok i => (domainError i).isNone
  | .error _ => false

/-- The invariant of the machine: BUSY = 1 exactly when PEND is not none (R31); BUSY and DONE never hold together
(R30); ERRCODE is NONE exactly when ERR = 0 (R180, R181); PEND holds an accepted command word (R31); and an error in
STATUS has set the fault mark (R198). -/
abbrev State.Inv (s : State) : Prop :=
  s.busy = s.pend.isSome ∧ (s.busy && s.done) = false ∧ (s.err = false ↔ s.errcode = .noError) ∧
    s.pend.all acceptedWord = true ∧ (s.err = true → s.faultMark = true)

/-- A run has ended (R67): the Host has performed its last operation, and PEND = none. -/
def State.ended (s : State) : Bool := s.host.isEmpty && s.pend.isNone

/-- The operation is an access at the core's own port, or a reset: not a platform access, which may be refused (R55). -/
def HostOp.atPort : HostOp → Bool
  | .platformRead _ _ => false
  | .platformWrite _ _ _ => false
  | .write _ _ => true
  | .read _ _ => true
  | .wait => true
  | .assertReset => true

/-- The Host's duties at a state (R66, R203): write W, ST, KY only while BUSY = 0, issue only while BUSY = 0 and only a
word the core accepts, and read a word the pending command writes only after BUSY = 0. -/
def HostOp.dutiful (s : State) : HostOp → Bool
  | .write a v =>
    if a = 0x00 then !s.busy && acceptedWord v
    else if a = 0x03 ∨ isStWord a ∨ isKyWord a then !s.busy
    else true
  | .read a _ => !(s.busy && pendingWrites s a)
  | .wait => true
  | .assertReset => true
  | .platformRead _ _ => false
  | .platformWrite _ _ _ => false

/-- The meanings of a list of commands, one after the other. -/
def execAll : List Instr → State → Host.Outcome State Fault Refusal
  | [], s => .next s
  | i :: rest, s =>
    match exec i s with
    | .next t => execAll rest t
    | .fault r => .fault r
    | .refused r => .refused r

/-- `n` steps of the machine. -/
def runSteps (n : Nat) (s : State) : Host.Outcome State Fault Refusal := Host.Core.run Sys2Proof.core n s

end Sys2Proof.Machine
end

