-- ==== Sys2Proof/Certificates/Slice0/Obligations.lean ====
section
/-! DEFINITION. The statements for the provers. Each docstring names the rule of spec/ it comes from. Where a statement says
`t.setY s.y = s` it says the whole frame: `t` with Y put back is `s`, so every other register, every STATUS bit, the
fault mark and the Host's state are as before (likewise for W, ST, KY, KS).

The helper definitions of `Sys2Proof.Spec` restate the spec's tables byte by byte and number by number, apart from the
model's own definitions. -/

namespace Sys2Proof.Spec

open Sys2Proof Sys2Proof.Machine

/-- OP of a word, as a number (R70). -/
def opNat (v : Word) : Nat := v.toNat / 2 ^ 24

/-- P of a word, as a number (R70). -/
def pNat (v : Word) : Nat := v.toNat / 2 ^ 20 % 16

/-- Q of a word, as a number (R70). -/
def qNat (v : Word) : Nat := v.toNat / 2 ^ 16 % 16

/-- A of a word, as a number (R70). -/
def aNat (v : Word) : Nat := v.toNat / 2 ^ 8 % 256

/-- B of a word, as a number (R70). -/
def bNat (v : Word) : Nat := v.toNat % 256

/-- The word is illegal (R75): OP unassigned, or a field that the "fields used" column of R72 does not name is nonzero. -/
def illegal (v : Word) : Prop :=
  opNat v = 0 ∨ 0x0E ≤ opNat v ∨ (opNat v = 1 ∧ (pNat v ≠ 0 ∨ qNat v ≠ 0)) ∨
    (opNat v = 2 ∧ (pNat v ≠ 0 ∨ qNat v ≠ 0 ∨ bNat v ≠ 0)) ∨ (opNat v = 3 ∧ (aNat v ≠ 0 ∨ bNat v ≠ 0)) ∨
    ((opNat v = 6 ∨ opNat v = 7) ∧ (qNat v ≠ 0 ∨ aNat v ≠ 0 ∨ bNat v ≠ 0)) ∨
    (opNat v ≠ 1 ∧ opNat v ≠ 2 ∧ opNat v ≠ 3 ∧ opNat v ≠ 6 ∧ opNat v ≠ 7 ∧
      (pNat v ≠ 0 ∨ qNat v ≠ 0 ∨ aNat v ≠ 0 ∨ bNat v ≠ 0))

/-- The operands of a decoded command are the word's fields (R70, R71, R72). -/
def fieldsOf (v : Word) : Instr → Prop
  | .gmul a b => opNat v = 0x01 ∧ a.toNat = aNat v ∧ b.toNat = bNat v
  | .sbyte a => opNat v = 0x02 ∧ a.toNat = aNat v
  | .subrng p q => opNat v = 0x03 ∧ p = pNat v ∧ q = qNat v
  | .rotw => opNat v = 0x04
  | .subw => opNat v = 0x05
  | .addrc p => opNat v = 0x06 ∧ p = pNat v
  | .keyexp p => opNat v = 0x07 ∧ p = pNat v
  | .keysched => opNat v = 0x08
  | .shrows => opNat v = 0x09
  | .mixcol => opNat v = 0x0A
  | .addrk => opNat v = 0x0B
  | .subst => opNat v = 0x0C
  | .encrypt => opNat v = 0x0D

/-- The table of worked encodings of R79, its 17 commands. -/
def workedWords : List (Instr × Word) :=
  [ (.gmul 0x57 0x83, 0x01005783), (.sbyte 0x53, 0x02005300), (.subrng 0 15, 0x030F0000), (.subrng 12 15, 0x03CF0000),
    (.rotw, 0x04000000), (.subw, 0x05000000), (.addrc 0, 0x06000000), (.addrc 9, 0x06900000), (.keyexp 0, 0x07000000),
    (.keyexp 9, 0x07900000), (.keyexp 10, 0x07A00000), (.keysched, 0x08000000), (.shrows, 0x09000000),
    (.mixcol, 0x0A000000), (.addrk, 0x0B000000), (.subst, 0x0C000000), (.encrypt, 0x0D000000) ]

/-- The error of R181 recorded in STATUS, the model fault mark of R198 set, and nothing else changed. -/
def raised (code : ErrCode) (s : State) : State :=
  { s with err := true, errcode := if s.err then s.errcode else code, faultMark := true }

/-- A command rejected while idle (R183): DONE <- 1, and the error recorded. -/
def rejected (code : ErrCode) (s : State) : State := { raised code s with done := true }

/-- `b0<<24 | b1<<16 | b2<<8 | b3` as a sum (R14). -/
def wordOf (b0 b1 b2 b3 : Byte) : Word :=
  BitVec.ofNat 32 (b0.toNat * 2 ^ 24 + b1.toNat * 2 ^ 16 + b2.toNat * 2 ^ 8 + b3.toNat)

/-- Byte `k` of a bus word, byte 0 in bits [31:24] (R14). -/
def byteOf (v : Word) (k : Fin 4) : Byte := BitVec.ofNat 8 (v.toNat / 2 ^ (24 - 8 * k.val))

/-- Word `j` of a block: bytes 4j to 4j+3 (R53). -/
def blockWord (x : Block) (j : Nat) : Word :=
  wordOf (x.get (Fin.ofNat 16 (4 * j))) (x.get (Fin.ofNat 16 (4 * j + 1))) (x.get (Fin.ofNat 16 (4 * j + 2)))
    (x.get (Fin.ofNat 16 (4 * j + 3)))

/-- The ERRCODE number of each name, as the table of R180 lists it. -/
def codeOf : ErrCode → Nat
  | .noError => 0
  | .illegalCmd => 1
  | .roundRange => 2
  | .rangeBounds => 3
  | .busyWrite => 4

/-- The current value of each word of the register map (R51). -/
def currentWord (s : State) (a : Nat) : Word :=
  if a = 0x01 then
    BitVec.ofNat 32 (s.busy.toNat + 2 * s.done.toNat + 4 * s.err.toNat + 16 * codeOf s.errcode)
  else if a = 0x02 then BitVec.ofNat 32 s.y.toNat
  else if a = 0x03 then wordOf (s.w.get 0) (s.w.get 1) (s.w.get 2) (s.w.get 3)
  else if 0x04 ≤ a ∧ a ≤ 0x07 then blockWord s.st (a - 0x04)
  else if 0x08 ≤ a ∧ a ≤ 0x0B then blockWord s.ky (a - 0x08)
  else if 0x10 ≤ a ∧ a ≤ 0x3B then blockWord (s.ks.get (Fin.ofNat 11 ((a - 0x10) / 4))) ((a - 0x10) % 4)
  else 0

/-- The write set of each command, as R205 lists it. -/
def writes (i : Instr) (a : Nat) : Prop :=
  match i with
  | .gmul _ _ | .sbyte _ => a = 0x02
  | .subrng _ _ | .shrows | .mixcol | .addrk | .subst => 0x04 ≤ a ∧ a ≤ 0x07
  | .rotw | .subw | .addrc _ => a = 0x03
  | .keyexp _ => 0x08 ≤ a ∧ a ≤ 0x0B
  | .keysched => 0x10 ≤ a ∧ a ≤ 0x3B
  | .encrypt => (0x04 ≤ a ∧ a ≤ 0x07) ∨ (0x10 ≤ a ∧ a ≤ 0x3B)

/-- BUSY = 1 and the pending command writes the word (R204). -/
def inBusyWindow (s : State) (a : BusAddr) : Prop :=
  s.busy = true ∧ ∃ v i, s.pend = some v ∧ decode v = .ok i ∧ writes i a.toNat

/-- The doubling of R92, `n` times, on the number of the byte. -/
def doubled (a : Byte) : Nat → Byte
  | 0 => a
  | n + 1 => if (doubled a n).toNat < 128 then doubled a n <<< 1 else (doubled a n <<< 1) ^^^ 0x1B

/-- The sum over the bits of `b` of `a` times that power of x: the product of R90 written out. -/
def bitProduct (a b : Byte) : Byte :=
  (List.range 8).foldl (fun acc k => if b.getLsbD k then acc ^^^ doubled a k else acc) 0

/-- A byte as a polynomial over GF(2) whose coefficient of x^k is bit k (R90). -/
noncomputable def toPoly (a : Byte) : Polynomial (ZMod 2) :=
  ∑ k ∈ Finset.range 8, if a.getLsbD k then Polynomial.X ^ k else 0

/-- The AES reduction polynomial x^8+x^4+x^3+x+1 (R90). -/
noncomputable def reductionPoly : Polynomial (ZMod 2) :=
  Polynomial.X ^ 8 + Polynomial.X ^ 4 + Polynomial.X ^ 3 + Polynomial.X + 1

/-- The affine map of R100: b ^ rotl(b,1) ^ rotl(b,2) ^ rotl(b,3) ^ rotl(b,4) ^ 0x63. -/
def affine (b : Byte) : Byte :=
  b ^^^ b.rotateLeft 1 ^^^ b.rotateLeft 2 ^^^ b.rotateLeft 3 ^^^ b.rotateLeft 4 ^^^ 0x63

/-- Row `r` of the g-value of a key for round index `n` (R121): the rotated, substituted last column, with Rcon in
row 0 as the power of 2 it is (R120). -/
def gByte (n : Nat) (k : Block) (r : Fin 4) : Byte :=
  sbox (k.get (byteIndex (r + 1) 3)) ^^^ (if r = 0 then doubled 0x01 n else 0)

/-- Row `r` of XOR of columns 0 to `c` of a key (R121, the recurrence unrolled). -/
def columnSum (k : Block) (r c : Fin 4) : Byte :=
  (List.range (c.val + 1)).foldl (fun acc j => acc ^^^ k.get (byteIndex r (Fin.ofNat 4 j))) 0

/-- The key step: `o` is round key `n+1` made from `k` (R121 unrolled, byte by byte). -/
def isNextKey (n : Nat) (k o : Block) : Prop :=
  ∀ r c : Fin 4, o.get (byteIndex r c) = gByte n k r ^^^ columnSum k r c

/-- One output byte of MixColumns, written out for one column (R142). -/
def mixByte (x : Block) (r c : Fin 4) : Byte :=
  doubled (x.get (byteIndex r c)) 1 ^^^ (doubled (x.get (byteIndex (r + 1) c)) 1 ^^^ x.get (byteIndex (r + 1) c)) ^^^
    x.get (byteIndex (r + 2) c) ^^^ x.get (byteIndex (r + 3) c)

/-- The stage table of R161: the state after stage `n`, with round keys `ks`. -/
def stage (plain : Block) (ks : KeyTable) : Nat → Block
  | 0 => addRoundKey plain (ks.get 0)
  | n + 1 =>
    let x := shiftRows (subState (stage plain ks n))
    addRoundKey (if n + 1 = 10 then x else mixColumns x) (ks.get (Fin.ofNat 11 (n + 1)))

/-- The command sequence of R162, without the last write-back of KY. -/
def encryptSequence : List Instr :=
  [.keysched, .addrk] ++ (List.range 9).flatMap (fun r => [.subst, .shrows, .mixcol, .keyexp r, .addrk]) ++
    [.subst, .shrows, .keyexp 9, .addrk]

/-- Each command issued by its CMD write and completed by its Core step, one after the other: `DO` of R83. -/
def doCommands : List Instr → State → Host.Outcome State Fault Refusal
  | [], s => .next s
  | i :: rest, s =>
    match coreStep (busWrite 0x00 (encode i) s) with
    | .next t => doCommands rest t
    | .fault r => .fault r
    | .refused r => .refused r

/-- The four bus writes of LD16 KY (R83). -/
def writeKey (k : Block) (s : State) : State :=
  busWrite 0x0B (pack k.c3) (busWrite 0x0A (pack k.c2) (busWrite 0x09 (pack k.c1) (busWrite 0x08 (pack k.c0) s)))

/-- The Host operation clears ERR and ERRCODE of instance `inst` (R185): a STATUS write with bit 2 set, at the port or
through a platform, or reset. -/
def clearsError (inst : Nat) (op : HostOp) : Prop :=
  op = .assertReset ∨ ∃ v : Word, v.getLsbD 2 = true ∧
    (op = .write 0x01 v ∨ ∃ b n, platformWord inst b n = .ok 0x01 ∧ op = .platformWrite b n v)

/-- The mnemonic and the operands, in order, that R82 gives each command. -/
def spells (m : Token) (ops : List Nat) : Instr → Prop
  | .gmul a b => m = ['G', 'M', 'U', 'L'] ∧ ops = [a.toNat, b.toNat]
  | .sbyte a => m = ['S', 'B', 'Y', 'T', 'E'] ∧ ops = [a.toNat]
  | .subrng p q => m = ['S', 'U', 'B', 'R', 'N', 'G'] ∧ ops = [p, q]
  | .rotw => m = ['R', 'O', 'T', 'W'] ∧ ops = []
  | .subw => m = ['S', 'U', 'B', 'W'] ∧ ops = []
  | .addrc p => m = ['A', 'D', 'D', 'R', 'C'] ∧ ops = [p]
  | .keyexp p => m = ['K', 'E', 'Y', 'E', 'X', 'P'] ∧ ops = [p]
  | .keysched => m = ['K', 'E', 'Y', 'S', 'C', 'H', 'E', 'D'] ∧ ops = []
  | .shrows => m = ['S', 'H', 'R', 'O', 'W', 'S'] ∧ ops = []
  | .mixcol => m = ['M', 'I', 'X', 'C', 'O', 'L'] ∧ ops = []
  | .addrk => m = ['A', 'D', 'D', 'R', 'K'] ∧ ops = []
  | .subst => m = ['S', 'U', 'B', 'S', 'T'] ∧ ops = []
  | .encrypt => m = ['E', 'N', 'C', 'R', 'Y', 'P', 'T'] ∧ ops = []

/-- Host operations one after the other, with no Core step between. -/
def performAll : List HostOp → State → Host.Outcome State Fault Refusal
  | [], s => .next s
  | op :: rest, s =>
    match hostPerform op s with
    | .next t => performAll rest t
    | .fault r => .fault r
    | .refused r => .refused r

end Sys2Proof.Spec

open Sys2Proof Sys2Proof.Machine Sys2Proof.Spec

/-! ### Encoding (30_encoding.md) -/

/-- R70, R74, R82: decoding the encoding of any command whose operands fit their fields gives it back. -/
def Obligations.DecodeOfEncodeIsTheCommand : Prop := ∀ i : Instr, i.wf = true → decode (encode i) = .ok i

/-- R73, R74: a word that decodes is the encoding of what it decodes to, which is well formed: no two words share a
command. -/
def Obligations.EncodeOfDecodeIsTheWord : Prop :=
  ∀ (v : Word) (i : Instr), decode v = .ok i → i.wf = true ∧ encode i = v

/-- R73: a word selects a mnemonic exactly when (v & mask) == match. -/
def Obligations.MaskAndMatchSelectTheMnemonic : Prop :=
  ∀ v : Word,
    ((∃ a b, decode v = .ok (.gmul a b)) ↔ v &&& 0xFFFF0000 = 0x01000000) ∧
    ((∃ a, decode v = .ok (.sbyte a)) ↔ v &&& 0xFFFF00FF = 0x02000000) ∧
    ((∃ p q, decode v = .ok (.subrng p q)) ↔ v &&& 0xFF00FFFF = 0x03000000) ∧
    (decode v = .ok .rotw ↔ v = 0x04000000) ∧ (decode v = .ok .subw ↔ v = 0x05000000) ∧
    ((∃ p, decode v = .ok (.addrc p)) ↔ v &&& 0xFF0FFFFF = 0x06000000) ∧
    ((∃ p, decode v = .ok (.keyexp p)) ↔ v &&& 0xFF0FFFFF = 0x07000000) ∧
    (decode v = .ok .keysched ↔ v = 0x08000000) ∧ (decode v = .ok .shrows ↔ v = 0x09000000) ∧
    (decode v = .ok .mixcol ↔ v = 0x0A000000) ∧ (decode v = .ok .addrk ↔ v = 0x0B000000) ∧
    (decode v = .ok .subst ↔ v = 0x0C000000) ∧ (decode v = .ok .encrypt ↔ v = 0x0D000000)

/-- R70, R71, R72: the operands of a decoded command are the word's fields, unsigned and unscaled. -/
def Obligations.DecodedOperandsAreTheFields : Prop :=
  ∀ (v : Word) (i : Instr), decode v = .ok i → fieldsOf v i

/-- R75: a word is illegal exactly when OP is unassigned or a reserved-zero field is nonzero; issuing it while idle
raises ILLEGAL_CMD and executes nothing; the all-zero word is illegal. -/
def Obligations.IllegalWordsAreExactlyThose : Prop :=
  (∀ v : Word, (∃ e, decode v = .error e) ↔ illegal v) ∧
    (∀ (v : Word) (s : State), illegal v → s.busy = false → issue v s = rejected .illegalCmd s) ∧ illegal 0x00000000

/-- R76: an operand outside its domain still decodes, and at issue it raises ROUND_RANGE or RANGE_BOUNDS, nothing
becoming pending and no data register changing. -/
def Obligations.OutOfDomainOperandsRaiseAtIssue : Prop :=
  ∀ (s : State) (p q : Nat), p < 16 → q < 16 → s.busy = false →
    decode (encode (.addrc p)) = .ok (.addrc p) ∧ decode (encode (.keyexp p)) = .ok (.keyexp p) ∧
    decode (encode (.subrng p q)) = .ok (.subrng p q) ∧
    (10 ≤ p → issue (encode (.addrc p)) s = rejected .roundRange s ∧ issue (encode (.keyexp p)) s = rejected .roundRange s) ∧
    (q ≤ p → issue (encode (.subrng p q)) s = rejected .rangeBounds s)

/-- R79: the worked encodings, read and written. -/
def Obligations.WorkedWordsDecodeAsListed : Prop :=
  (∀ x ∈ workedWords, decode x.2 = .ok x.1 ∧ encode x.1 = x.2) ∧
    decode 0x0D000001 = .error .reservedNonzero ∧ decode 0x0E000000 = .error .unassignedOpcode

/-! ### Agents and steps (00_scope.md, 10_state.md, 20_memory.md, 70_reset_and_hazards.md) -/

/-- R31: the Core's step performs the rule of the command in PEND and then sets PEND <- none, BUSY <- 0, DONE <- 1.
`coreWait` is the model's own (log 1). -/
def Obligations.StepRunsThePendingCommand : Prop :=
  ∀ (s : State) (v : Word) (i : Instr), s.pend = some v → decode v = .ok i → coreMoves s = true →
    step s = match exec i s with
      | .next t => .next { t with pend := none, busy := false, done := true, coreWait := 0 }
      | .fault r => .fault r
      | .refused r => .refused r

/-- R60, R66, R67: when the Core does not move, a step is the Host's next operation and nothing else; with no operation
left and nothing pending the state stays (log 19). What the operations do at the port: a write is the bus write, a read
the bus read with its word appended to what the Host has got back (R66; that it is kept in a record is log 12), and
asserting reset the reset. -/
def Obligations.StepRunsTheNextHostOperation : Prop :=
  (∀ (s : State) (op : HostOp) (rest : List HostOp), s.host = op :: rest → s.pend = none →
    step s = hostPerform op { s with host := rest, coreWait := s.coreWait - 1 }) ∧
  (∀ (s : State) (op : HostOp) (rest : List HostOp) (n : Nat), s.host = op :: rest → s.coreWait = n + 1 →
    step s = hostPerform op { s with host := rest, coreWait := n }) ∧
  (∀ s : State, s.host = [] → s.pend = none → step s = .next s) ∧
  (∀ (a : BusAddr) (v : Word) (s : State), hostPerform (.write a v) s = .next (busWrite a v s)) ∧
  (∀ (a : BusAddr) (name : Option (List Char)) (s : State), hostPerform (.read a name) s =
    .next { (busRead a s).2 with reads := s.reads ++ [⟨a, (busRead a s).1, name⟩] }) ∧
  (∀ s : State, hostPerform .assertReset s = .next (hostReset s))

/-- R30, R31, R180, R181, R198: BUSY = 1 exactly when PEND is not none, BUSY and DONE never hold together, ERRCODE is
NONE exactly when ERR = 0, PEND holds an accepted word, an error has set the fault mark: every step keeps it. -/
def Obligations.EveryStepKeepsTheStatusInvariant : Prop := ∀ s t : State, s.Inv → step s = .next t → t.Inv

/-- R37, R201: the reset state meets that invariant. -/
def Obligations.ResetMeetsTheStatusInvariant : Prop := State.reset.Inv

/-- R31 ("The step never fails"), R181: from a state that meets the invariant, whose Host accesses the core only at its
port, every step answers a next state; no command, no error and no bus access stops the machine. -/
def Obligations.NoStepStopsTheMachine : Prop :=
  ∀ s : State, s.Inv → (∀ op ∈ s.host, op.atPort = true) →
    ∃ t, step s = .next t ∧ ∀ op ∈ t.host, op.atPort = true

/-- R67, R206: under the fairness of R206 (the free delay is a natural number, log 1) every host program ends: the Host
has performed its last operation and PEND = none. -/
def Obligations.EveryHostProgramEnds : Prop :=
  ∀ s : State, s.Inv → (∀ op ∈ s.host, op.atPort = true) → ∃ n t, runSteps n s = .next t ∧ t.ended = true

/-- R198: recording an error sets the model fault mark, and no step clears it, not a STATUS write and not reset. -/
def Obligations.FaultMarkIsSticky : Prop :=
  (∀ (code : ErrCode) (s : State), (raiseError code s).faultMark = true) ∧
    ∀ s t : State, s.faultMark = true → step s = .next t → t.faultMark = true

/-- R32, R185: a step that clears ERR or changes the ERRCODE of a recorded error is no Core step but a STATUS write with
bit 2 set or a reset, and those two clear both. -/
def Obligations.OnlyAClearOrResetClearsErr : Prop :=
  (∀ s t : State, s.err = true → step s = .next t → (t.err = false ∨ t.errcode ≠ s.errcode) →
    coreMoves s = false ∧ ∃ op ∈ s.host.head?, clearsError s.inst op) ∧
  (∀ (s : State) (v : Word), v.getLsbD 2 = true →
    (busWrite 0x01 v s).err = false ∧ (busWrite 0x01 v s).errcode = .noError) ∧
  (∀ s : State, (hostReset s).err = false ∧ (hostReset s).errcode = .noError)

/-- R31, R60, R183: an accepted command, then its Core step: exactly the command's rule on the state at issue, and DONE.
`draws` counts the free value of the acceptance (log 1). -/
def Obligations.IssuedCommandTakesEffectOnce : Prop :=
  ∀ (s : State) (v : Word) (i : Instr), s.busy = false → decode v = .ok i → domainError i = none →
    ∃ u, exec i s = .next u ∧ coreStep (issue v s) =
      .next { u with pend := none, busy := false, done := true, coreWait := 0, draws := s.draws + 1 }

/-- R66, R198, R203: while the Host keeps its duties, no step sets the fault mark. -/
def Obligations.DutifulHostSetsNoFaultMark : Prop :=
  ∀ s t : State, s.Inv → s.faultMark = false → (∀ op ∈ s.host.head?, op.dutiful s = true) → step s = .next t →
    t.faultMark = false

/-- R61: a STATUS read that returns BUSY = 0 means that no command is pending: its Core step has happened. -/
def Obligations.StatusNotBusyMeansComplete : Prop :=
  ∀ s : State, s.Inv → (busRead 0x01 s).1.getLsbD 0 = false → s.pend = none

/-- R194: a step of one instance leaves every other instance as it was, and is that instance's own step. Every step keeps
the instance's number, and after reset instance `k` has the number `k` (log 8), so that no two share a free value
(R60, R204). -/
def Obligations.InstancesDoNotInteract : Prop :=
  (∀ (cores out : List State) (k : Nat) (s : State), cores[k]? = some s → systemStep cores k = .next out →
    out.length = cores.length ∧ (∀ j, j ≠ k → out[j]? = cores[j]?) ∧ ∃ t, step s = .next t ∧ out[k]? = some t) ∧
  (∀ s t : State, step s = .next t → t.inst = s.inst) ∧
  systemReset.length = Config.nCores ∧ 1 ≤ Config.nCores ∧
  ∀ k, k < Config.nCores → systemReset[k]? = some { State.reset with inst := k }

/-! ### The bus and STATUS (10_state.md, 20_memory.md, 60_exceptions.md) -/

/-- R51: BusRead, with its one exception: while BUSY = 1 a word the pending command writes reads as a free value. -/
def Obligations.BusReadFollowsTheMap : Prop :=
  ∀ (a : BusAddr) (s : State),
    (¬inBusyWindow s a → busRead a s = (currentWord s a.toNat, s)) ∧
    (inBusyWindow s a → busRead a s = (Config.busyRead s.inst s.draws, { s with draws := s.draws + 1 }))

/-- R52: BusWrite, word by word of the map; the two error cases record BUSY_WRITE. -/
def Obligations.BusWriteFollowsTheMap : Prop :=
  ∀ (a : BusAddr) (v : Word) (s : State),
    (a.toNat = 0x00 → busWrite a v s = issue v s) ∧
    (a.toNat = 0x01 → busWrite a v s =
      { s with done := s.done && !v.getLsbD 1, err := s.err && !v.getLsbD 2,
               errcode := if v.getLsbD 2 then .noError else s.errcode }) ∧
    (3 ≤ a.toNat ∧ a.toNat ≤ 0x0B → s.busy = true → busWrite a v s = raised .busyWrite s) ∧
    (a.toNat = 0x03 → s.busy = false →
      (∀ k, (busWrite a v s).w.get k = byteOf v k) ∧ (busWrite a v s).setW s.w = s) ∧
    (4 ≤ a.toNat ∧ a.toNat ≤ 7 → s.busy = false →
      (∀ i, (busWrite a v s).st.get i = if (colOf i).val = a.toNat - 4 then byteOf v (rowOf i) else s.st.get i) ∧
        (busWrite a v s).setSt s.st = s) ∧
    (8 ≤ a.toNat ∧ a.toNat ≤ 0x0B → s.busy = false →
      (∀ i, (busWrite a v s).ky.get i = if (colOf i).val = a.toNat - 8 then byteOf v (rowOf i) else s.ky.get i) ∧
        (busWrite a v s).setKy s.ky = s) ∧
    (a.toNat = 0x02 ∨ 0x0C ≤ a.toNat → busWrite a v s = s)

/-- R52, R54: while BUSY = 0 a written word reads back, and every other word reads as before. -/
def Obligations.WrittenWordReadsBackAlone : Prop :=
  ∀ (a : BusAddr) (v : Word) (s : State), s.busy = false → 3 ≤ a.toNat ∧ a.toNat ≤ 0x0B →
    (busRead a (busWrite a v s)).1 = v ∧ ∀ b, b ≠ a → busRead b (busWrite a v s) = ((busRead b s).1, busWrite a v s)

/-- R57: no bus read has a side effect (`draws` counts free values and is the model's own, log 2); writing ST, KY or W
while BUSY = 0, and writing STATUS, is idempotent; writing CMD is not; writes to Y, KS and reserved words do nothing. -/
def Obligations.SideEffectsOfBusAccesses : Prop :=
  (∀ (a : BusAddr) (s : State), { (busRead a s).2 with draws := s.draws } = s) ∧
  (∀ (a : BusAddr) (v : Word) (s : State), 3 ≤ a.toNat ∧ a.toNat ≤ 0x0B → s.busy = false →
    busWrite a v (busWrite a v s) = busWrite a v s) ∧
  (∀ (v : Word) (s : State), busWrite 0x01 v (busWrite 0x01 v s) = busWrite 0x01 v s) ∧
  (∃ (v : Word) (s : State), busWrite 0x00 v (busWrite 0x00 v s) ≠ busWrite 0x00 v s) ∧
  (∀ (a : BusAddr) (v : Word) (s : State), a.toNat = 0x02 ∨ 0x0C ≤ a.toNat → busWrite a v s = s)

/-- R28, R180: every bit of STATUS as it reads, ERRCODE by the numbers of R180, and its write. -/
def Obligations.StatusReadsItsFields : Prop :=
  ∀ s : State,
    (busRead 0x01 s).2 = s ∧ (busRead 0x01 s).1.getLsbD 0 = s.busy ∧ (busRead 0x01 s).1.getLsbD 1 = s.done ∧
    (busRead 0x01 s).1.getLsbD 2 = s.err ∧ (busRead 0x01 s).1.getLsbD 3 = false ∧
    (busRead 0x01 s).1.extractLsb' 4 4 = BitVec.ofNat 4 (codeOf s.errcode) ∧ (∀ k, 8 ≤ k → (busRead 0x01 s).1.getLsbD k = false) ∧
    ∀ v : Word, busWrite 0x01 v s =
      { s with done := if v.getLsbD 1 then false else s.done, err := if v.getLsbD 2 then false else s.err,
               errcode := if v.getLsbD 2 then .noError else s.errcode }

/-- R181: recording an error writes ERRCODE only if ERR = 0, sets ERR, and changes nothing else but the model fault mark
(R198): no register other than STATUS, and neither BUSY, DONE nor PEND; so over any run of errors from ERR = 0 the first code is kept. -/
def Obligations.FirstErrorCodeIsKept : Prop :=
  (∀ (code : ErrCode) (s : State), (raiseError code s).err = true ∧
    (raiseError code s).errcode = (if s.err = false then code else s.errcode) ∧
    { raiseError code s with err := s.err, errcode := s.errcode, faultMark := s.faultMark } = s ∧
    ∀ a : BusAddr, a ≠ 0x01 → busPeek a (raiseError code s) = busPeek a s) ∧
  (∀ (first : ErrCode) (later : List ErrCode) (s : State), s.err = false →
    (later.foldl (fun t code => raiseError code t) (raiseError first s)).err = true ∧
      (later.foldl (fun t code => raiseError code t) (raiseError first s)).errcode = first)

/-- R183: Issue, check by check on the word's fields: BUSY_WRITE, ILLEGAL_CMD, ROUND_RANGE or RANGE_BOUNDS, else
accepted. `coreWait` and `draws` are the model's own (log 1). -/
def Obligations.IssueChecksInOrder : Prop :=
  ∀ (v : Word) (s : State),
    (s.busy = true → issue v s = raised .busyWrite s) ∧
    (s.busy = false → illegal v → issue v s = rejected .illegalCmd s) ∧
    (s.busy = false → ¬illegal v → (opNat v = 6 ∨ opNat v = 7) → 9 < pNat v → issue v s = rejected .roundRange s) ∧
    (s.busy = false → ¬illegal v → opNat v = 3 → ¬pNat v < qNat v → issue v s = rejected .rangeBounds s) ∧
    (s.busy = false → ¬illegal v → ((opNat v = 6 ∨ opNat v = 7) → pNat v ≤ 9) → (opNat v = 3 → pNat v < qNat v) →
      issue v s = { s with pend := some v, busy := true, done := false,
                           coreWait := Config.coreDelay s.inst s.draws, draws := s.draws + 1 })

/-- R184: a write to W, ST or KY while BUSY = 1 records BUSY_WRITE and changes nothing else; a STATUS write never does;
writes to Y, KS and reserved words have no effect at any time. -/
def Obligations.BusyWritesAreDropped : Prop :=
  ∀ (a : BusAddr) (v : Word) (s : State),
    (s.busy = true → 3 ≤ a.toNat ∧ a.toNat ≤ 0x0B → busWrite a v s = raised .busyWrite s) ∧
    (a.toNat = 0x01 → (busWrite a v s).faultMark = s.faultMark ∧ ((busWrite a v s).err = true → s.err = true)) ∧
    (a.toNat = 0x02 ∨ 0x0C ≤ a.toNat → busWrite a v s = s)

/-- R37, R200: from any state at all, reset sets every register to its reset value and discards a pending command; the
model fault mark stays (R198). -/
def Obligations.ResetSetsEveryRegister : Prop :=
  ∀ s : State,
    (∀ i, (hostReset s).st.get i = 0) ∧ (∀ i, (hostReset s).ky.get i = 0) ∧ (∀ i, (hostReset s).w.get i = 0) ∧
    (hostReset s).y = 0 ∧ (∀ k i, ((hostReset s).ks.get k).get i = 0) ∧ (hostReset s).pend = none ∧
    (hostReset s).busy = false ∧ (hostReset s).done = false ∧ (hostReset s).err = false ∧
    (hostReset s).errcode = .noError ∧ (hostReset s).faultMark = s.faultMark

/-- R37, R51: after a reset from any state every one of the 64 words reads 0. -/
def Obligations.AfterResetEveryWordReadsZero : Prop :=
  ∀ (s : State) (a : BusAddr), busRead a (hostReset s) = (0, hostReset s)

/-- R55: an aligned 32-bit platform access at byte address CORE_BASE + 4a (the instance's own CORE_BASE, log 7) is the bus access of word a, and a misaligned
access or one of another width is refused. -/
def Obligations.PlatformAccessReachesItsWord : Prop :=
  (∀ k, Config.coreBase k % 4 = 0) ∧
  (∀ (a : BusAddr) (v : Word) (s : State),
    hostPerform (.platformWrite (Config.coreBase s.inst + 4 * a.toNat) 4 v) s = hostPerform (.write a v) s ∧
    hostPerform (.platformRead (Config.coreBase s.inst + 4 * a.toNat) 4) s = hostPerform (.read a none) s) ∧
  (∀ (b n : Nat) (v : Word) (s : State), n ≠ 4 ∨ b % 4 ≠ 0 →
    ∃ r, hostPerform (.platformWrite b n v) s = .refused r ∧ hostPerform (.platformRead b n) s = .refused r)

/-! ### The commands (40 to 44) -/

/-- R91: GMUL completes for all bytes and writes the product of R90 to Y, and Y only. -/
def Obligations.GmulWritesTheProduct : Prop :=
  ∀ (a b : Byte) (s : State), ∃ t, exec (.gmul a b) s = .next t ∧ t.y = bitProduct a b ∧ t.setY s.y = s

/-- R90: gmul is multiplication of polynomials over GF(2) modulo x^8+x^4+x^3+x+1. -/
def Obligations.GmulIsMultiplicationModuloThePolynomial : Prop :=
  ∀ a b : Byte, reductionPoly ∣ toPoly a * toPoly b - toPoly (gmul a b)

/-- R92: the laws of gmul. -/
def Obligations.GmulLaws : Prop :=
  ∀ a b c : Byte,
    gmul a b = gmul b a ∧ gmul a 0x00 = 0x00 ∧ gmul a 0x01 = a ∧ gmul (gmul a b) c = gmul a (gmul b c) ∧
    gmul a (b ^^^ c) = gmul a b ^^^ gmul a c ∧
    gmul a 0x02 = (a <<< 1) ^^^ (if a.getLsbD 7 then 0x1B else 0x00) ∧
    gmul a 0x03 = (a <<< 1) ^^^ (if a.getLsbD 7 then 0x1B else 0x00) ^^^ a

/-- R100, R102: SBYTE completes for all bytes and writes S(A) to Y, and Y only; S is the multiplicative inverse (0 to 0)
followed by the affine map of R100. -/
def Obligations.SbyteWritesTheSubstitutedByte : Prop :=
  ∀ (a : Byte) (s : State), ∃ t inv, exec (.sbyte a) s = .next t ∧ t.y = affine inv ∧
    (a = 0 → inv = 0) ∧ (a ≠ 0 → gmul a inv = 1) ∧ t.setY s.y = s

/-- R100: the S-box is a bijection without a fixed point, and has the entries the source pins. -/
def Obligations.SboxIsABijectionWithoutFixedPoint : Prop :=
  Function.Bijective sbox ∧ (∀ x, sbox x ≠ x) ∧
    sbox 0x20 = 0xB7 ∧ sbox 0x46 = 0x5A ∧ sbox 0x75 = 0x9D ∧ sbox 0x67 = 0x85

/-- R103: SUBRNG completes for every legal range, substitutes ST[P..Q] and leaves the other bytes. -/
def Obligations.SubrngSubstitutesItsRange : Prop :=
  ∀ (p q : Nat) (s : State), p < q → q < 16 →
    ∃ t, exec (.subrng p q) s = .next t ∧ t.setSt s.st = s ∧
      ∀ i, t.st.get i = if p ≤ i.val ∧ i.val ≤ q then sbox (s.st.get i) else s.st.get i

/-- R103, R124, R125, R181: outside its domain a command records its error and changes nothing else. -/
def Obligations.OutOfDomainCommandsOnlyRaise : Prop :=
  ∀ (p q : Nat) (s : State),
    (¬(p < q ∧ q < 16) → exec (.subrng p q) s = .next (raised .rangeBounds s)) ∧
    (9 < p → exec (.addrc p) s = .next (raised .roundRange s)) ∧
    (9 < p → exec (.keyexp p) s = .next (raised .roundRange s))

/-- R122: ROTW completes and rotates W left by one byte; its bus word is rotated left by 8 bits; four restore W. -/
def Obligations.RotwRotatesTheWord : Prop :=
  ∀ s : State, (∃ t, exec .rotw s = .next t ∧ t.setW s.w = s ∧ (∀ i, t.w.get i = s.w.get (i + 1)) ∧
      busPeek 0x03 t = (busPeek 0x03 s).rotateLeft 8) ∧
    execAll [.rotw, .rotw, .rotw, .rotw] s = .next s

/-- R123: SUBW completes and substitutes each byte of W. -/
def Obligations.SubwSubstitutesEachByte : Prop :=
  ∀ s : State, ∃ t, exec .subw s = .next t ∧ t.setW s.w = s ∧ ∀ i, t.w.get i = sbox (s.w.get i)

/-- R120, R124: for P in 0..9 ADDRC completes and XORs the P-th power of 2 into W[0] only; twice restores W. -/
def Obligations.AddrcXorsTheRoundConstant : Prop :=
  ∀ (p : Nat) (s : State), p ≤ 9 →
    (∃ t, exec (.addrc p) s = .next t ∧ t.setW s.w = s ∧ t.w.get 0 = s.w.get 0 ^^^ doubled 0x01 p ∧
      ∀ i, i ≠ 0 → t.w.get i = s.w.get i) ∧ execAll [.addrc p, .addrc p] s = .next s

/-- R121, R125: for P in 0..9 KEYEXP completes and replaces KY by the next round key, and KY only. -/
def Obligations.KeyexpMakesTheNextRoundKey : Prop :=
  ∀ (p : Nat) (s : State), p ≤ 9 → ∃ t, exec (.keyexp p) s = .next t ∧ t.setKy s.ky = s ∧ isNextKey p s.ky t.ky

/-- R126, R127: KEYSCHED completes and writes the whole table: entry 0 is KY, entry i+1 the next round key with round
index i; nothing else changes. -/
def Obligations.KeyschedFillsTheTable : Prop :=
  ∀ s : State, ∃ t, exec .keysched s = .next t ∧ t.setKs s.ks = s ∧ t.ks.get 0 = s.ky ∧
    ∀ i : Fin 10, isNextKey i.val (t.ks.get i.castSucc) (t.ks.get i.succ)

/-- R125, R126: KEYEXP 0 through KEYEXP n-1, in order, turn KY from KS[0] into KS[n] of the same key, for n up to 10. -/
def Obligations.KeyexpStepsThroughTheTable : Prop :=
  ∀ (s : State) (n : Fin 11), ∃ t u, execAll ((List.range n.val).map .keyexp) s = .next t ∧
    exec .keysched s = .next u ∧ t.ky = u.ks.get n ∧ t.setKy s.ky = s

/-- R140, R142, R143: SHROWS completes and rotates row r left by r positions; four restore ST. -/
def Obligations.ShrowsRotatesEachRow : Prop :=
  ∀ s : State, (∃ t, exec .shrows s = .next t ∧ t.setSt s.st = s ∧
      ∀ r c : Fin 4, t.st.get (byteIndex r c) = s.st.get (byteIndex r (c + r))) ∧
    execAll [.shrows, .shrows, .shrows, .shrows] s = .next s

/-- R141, R142, R144: MIXCOL completes and multiplies each column by the matrix, as written out in R142. -/
def Obligations.MixcolMultipliesEachColumn : Prop :=
  ∀ s : State, ∃ t, exec .mixcol s = .next t ∧ t.setSt s.st = s ∧
    ∀ r c : Fin 4, t.st.get (byteIndex r c) = mixByte s.st r c

/-- R144: MixColumns is linear over XOR. -/
def Obligations.MixColumnsIsLinear : Prop :=
  ∀ x y : Block, mixColumns (addRoundKey x y) = addRoundKey (mixColumns x) (mixColumns y)

/-- R142, R145: ADDRK completes and XORs KY into ST byte by byte; twice restores ST. -/
def Obligations.AddrkXorsTheKey : Prop :=
  ∀ s : State, (∃ t, exec .addrk s = .next t ∧ t.setSt s.st = s ∧
      ∀ i, t.st.get i = s.st.get i ^^^ s.ky.get i) ∧ execAll [.addrk, .addrk] s = .next s

/-- R103, R142, R143, R146: SUBST completes and substitutes every byte of ST; it is SUBRNG 0, 15, and commutes with
SHROWS. -/
def Obligations.SubstSubstitutesEveryByte : Prop :=
  ∀ s : State, (∃ t, exec .subst s = .next t ∧ t.setSt s.st = s ∧ ∀ i, t.st.get i = sbox (s.st.get i)) ∧
    exec .subst s = exec (.subrng 0 15) s ∧ execAll [.shrows, .subst] s = execAll [.subst, .shrows] s

/-- R160, R161: ENCRYPT completes; ST is the state after stage 10 of the stage table, KS the key-schedule table of KY;
KY, W, Y and all else are unchanged. -/
def Obligations.EncryptFollowsTheStageTable : Prop :=
  ∀ s : State, ∃ t, exec .encrypt s = .next t ∧ (t.setSt s.st).setKs s.ks = s ∧ t.st = stage s.st t.ks 10 ∧
    t.ks.get 0 = s.ky ∧ ∀ i : Fin 10, isNextKey i.val (t.ks.get i.castSucc) (t.ks.get i.succ)

/-- R162: from a state with BUSY = 0, ENCRYPT issued and completed leaves the same machine as its command sequence, each
command issued on the bus and completed before the next, with KY then written back word by word; `draws` alone differs,
which counts the free values of the issues and is the model's own (log 1). -/
def Obligations.EncryptEqualsItsCommandSequence : Prop :=
  ∀ s : State, s.busy = false → ∃ t u, doCommands encryptSequence s = .next t ∧ doCommands [.encrypt] s = .next u ∧
    { writeKey s.ky t with draws := u.draws } = u

/-- R163: ENCRYPT depends only on KY and on ST: not on W, Y, the old KS, STATUS or anything else. -/
def Obligations.EncryptDependsOnlyOnKeyAndBlock : Prop :=
  ∀ s u : State, s.st = u.st → s.ky = u.ky →
    ∃ t x, exec .encrypt s = .next t ∧ exec .encrypt u = .next x ∧ t.st = x.st ∧ t.ks = x.ks

/-- R21 to R25: which commands write each register; Y only GMUL and SBYTE, W only ROTW, SUBW and ADDRC, KY only KEYEXP,
KS only KEYSCHED and ENCRYPT, ST only the six of R21. -/
def Obligations.OnlyTheirCommandsWriteTheRegisters : Prop :=
  ∀ (i : Instr) (s t : State), exec i s = .next t →
    (t.y ≠ s.y → (∃ a b, i = .gmul a b) ∨ ∃ a, i = .sbyte a) ∧
    (t.w ≠ s.w → i = .rotw ∨ i = .subw ∨ ∃ p, i = .addrc p) ∧
    (t.ky ≠ s.ky → ∃ p, i = .keyexp p) ∧
    (t.ks ≠ s.ks → i = .keysched ∨ i = .encrypt) ∧
    (t.st ≠ s.st → (∃ p q, i = .subrng p q) ∨ i = .shrows ∨ i = .mixcol ∨ i = .addrk ∨ i = .subst ∨ i = .encrypt)

/-- R25, R34: no command reads KS, and no command's data results depend on STATUS or on what is pending. -/
def Obligations.NoCommandReadsKsOrStatus : Prop :=
  ∀ (i : Instr) (s u : State), s.st = u.st → s.ky = u.ky → s.w = u.w → s.y = u.y →
    ∃ t x, exec i s = .next t ∧ exec i u = .next x ∧ t.st = x.st ∧ t.ky = x.ky ∧ t.w = x.w ∧ t.y = x.y ∧
      (t.ks = s.ks ∧ x.ks = u.ks ∨ t.ks = x.ks)

/-- R205: a command in its domain completes, and every bus word outside its write set reads as before. -/
def Obligations.CommandsWriteOnlyTheirWriteSet : Prop :=
  ∀ (i : Instr) (s : State), domainError i = none →
    ∃ t, exec i s = .next t ∧ ∀ a : BusAddr, ¬writes i a.toNat → busPeek a t = busPeek a s

/-! ### The assembler (30_encoding.md R82, R83) -/

/-- R82: a mnemonic with operands assembles to a command exactly when the command is the mnemonic's with just those
operands and they fit its fields; a CMD line is then the one CMD write of its encoding, which has the operands in their
fields and zero in every other. An operand that does not fit is an assembly error and is not truncated. -/
def Obligations.AssemblerNeverTruncates : Prop :=
  (∀ (m : Token) (ops : List Nat) (i : Instr), asmCommand m ops = .ok i ↔ i.wf = true ∧ spells m ops i) ∧
  (∀ (m : Token) (ops : List Nat) (l : List HostOp), expandLine (.cmd m ops) = .ok l ↔
    ∃ i : Instr, i.wf = true ∧ spells m ops i ∧ l = [.write 0x00 (encode i)]) ∧
  (∀ i : Instr, i.wf = true → fieldsOf (encode i) i ∧ ¬illegal (encode i)) ∧
  (∀ a b : Nat, 256 ≤ a ∨ 256 ≤ b → asmCommand ['G', 'M', 'U', 'L'] [a, b] = .error .operandTooLarge) ∧
  (∀ a : Nat, 256 ≤ a → asmCommand ['S', 'B', 'Y', 'T', 'E'] [a] = .error .operandTooLarge) ∧
  (∀ p q : Nat, 16 ≤ p ∨ 16 ≤ q → asmCommand ['S', 'U', 'B', 'R', 'N', 'G'] [p, q] = .error .operandTooLarge) ∧
  (∀ p : Nat, 16 ≤ p → asmCommand ['A', 'D', 'D', 'R', 'C'] [p] = .error .operandTooLarge ∧
    asmCommand ['K', 'E', 'Y', 'E', 'X', 'P'] [p] = .error .operandTooLarge) ∧
  (∀ (r : RegName) (v : Nat), 2 ^ 32 ≤ v → expandLine (.wr r v) = .error .operandTooLarge) ∧
  (∀ bytes : List Nat, (∃ b ∈ bytes, 256 ≤ b) →
    expandLine (.ldSt bytes) = .error .operandTooLarge ∧ expandLine (.ldKy bytes) = .error .operandTooLarge)

/-- R83, R14: the four reads of RD16 give the Host, unpacked, the 16 bytes of the register, under the name if it has one,
and change nothing else, when the pending command writes none of the four words (R204). -/
def Obligations.Rd16GetsTheSixteenBytes : Prop :=
  ∀ (s : State) (name : Option Token),
    ((∀ j, ¬inBusyWindow s (regAddr (.st j))) → ∃ l t, expandLine (.rdSt name) = .ok l ∧ performAll l s = .next t ∧
      rd16Bytes .st t.reads = some s.st ∧ (∀ n, name = some n → rd16Named .st n t.reads = some s.st) ∧
      { t with reads := s.reads } = s) ∧
    ((∀ j, ¬inBusyWindow s (regAddr (.ky j))) → ∃ l t, expandLine (.rdKy name) = .ok l ∧ performAll l s = .next t ∧
      rd16Bytes .ky t.reads = some s.ky ∧ (∀ n, name = some n → rd16Named .ky n t.reads = some s.ky) ∧
      { t with reads := s.reads } = s) ∧
    ∀ i : Fin 11, (∀ j, ¬inBusyWindow s (regAddr (.ks i j))) → ∃ l t, expandLine (.rdKs i name) = .ok l ∧
      performAll l s = .next t ∧ rd16Bytes (.ks i) t.reads = some (s.ks.get i) ∧
      (∀ n, name = some n → rd16Named (.ks i) n t.reads = some (s.ks.get i)) ∧ { t with reads := s.reads } = s

/-- R83: the expansions of the pseudo-instructions, for every block and every command; WAIT is
`RD STATUS -> s`, and goes round again exactly when the word read has BUSY = 1. That a poll, like every read, appends its
word and its name to the Host's record is the model's choice (log 12). -/
def Obligations.PseudoInstructionsExpand : Prop :=
  expandLine .wait = .ok [.wait] ∧
  (∀ s : State, ∃ t, hostPerform .wait s = .next t ∧ t.host = (if s.busy then .wait :: s.host else s.host) ∧
    t.reads = s.reads ++ [⟨0x01, currentWord s 0x01, some ['s']⟩] ∧ { t with host := s.host, reads := s.reads } = s) ∧ expandLine .clrDone = .ok [.write 0x01 0x00000002] ∧
  expandLine .clrErr = .ok [.write 0x01 0x00000004] ∧
  (∀ x : Block,
    expandLine (.ldSt ((List.finRange 16).map fun i => (x.get i).toNat)) =
      .ok ((List.range 4).map fun j => HostOp.write (BitVec.ofNat 6 (0x04 + j)) (blockWord x j)) ∧
    expandLine (.ldKy ((List.finRange 16).map fun i => (x.get i).toNat)) =
      .ok ((List.range 4).map fun j => HostOp.write (BitVec.ofNat 6 (0x08 + j)) (blockWord x j))) ∧
  expandLine (.rdSt none) = .ok ((List.range 4).map fun j => HostOp.read (BitVec.ofNat 6 (0x04 + j)) none) ∧
  expandLine (.rdKy none) = .ok ((List.range 4).map fun j => HostOp.read (BitVec.ofNat 6 (0x08 + j)) none) ∧
  (∀ k : Fin 11, expandLine (.rdKs k none) =
    .ok ((List.range 4).map fun j => HostOp.read (BitVec.ofNat 6 (0x10 + 4 * k.val + j)) none)) ∧
  (∀ (m : Token) (ops : List Nat) (i : Instr), asmCommand m ops = .ok i →
    expandLine (.doCmd m ops) = .ok [.write 0x00 (encode i), .wait])
end

