-- ==== Sys2Proof/Laws/Operands.lean ====
section
/-! SUPPORT. The byte vectors, packing, and the operands with a domain (Machine/Operands.lean). -/

namespace Sys2Proof.Laws

open Sys2Proof Sys2Proof.Machine

theorem quad_ext {p q : Quad} (h : ∀ i, p.get i = q.get i) : p = q := by
  obtain ⟨p0, p1, p2, p3⟩ := p
  obtain ⟨q0, q1, q2, q3⟩ := q
  have h0 : p0 = q0 := h 0
  have h1 : p1 = q1 := h 1
  have h2 : p2 = q2 := h 2
  have h3 : p3 = q3 := h 3
  subst h0 h1 h2 h3
  rfl

theorem forall_fin4 {P : Fin 4 → Prop} : (∀ i, P i) ↔ P 0 ∧ P 1 ∧ P 2 ∧ P 3 :=
  ⟨fun h => ⟨h 0, h 1, h 2, h 3⟩, fun ⟨h0, h1, h2, h3⟩ i => by
    match i with
    | 0 => exact h0
    | 1 => exact h1
    | 2 => exact h2
    | 3 => exact h3⟩

@[simp] theorem quad_get_ofFn (f : Fin 4 → Byte) (i : Fin 4) : (Quad.ofFn f).get i = f i := by
  revert i; exact forall_fin4.2 ⟨rfl, rfl, rfl, rfl⟩

@[simp] theorem quad_get_map (f : Byte → Byte) (q : Quad) (i : Fin 4) : (q.map f).get i = f (q.get i) := by
  revert i; exact forall_fin4.2 ⟨rfl, rfl, rfl, rfl⟩

@[simp] theorem quad_get_xor (p q : Quad) (i : Fin 4) : (p.xor q).get i = p.get i ^^^ q.get i := by
  revert i; exact forall_fin4.2 ⟨rfl, rfl, rfl, rfl⟩

theorem block_ext_col {x y : Block} (h : ∀ c, x.col c = y.col c) : x = y := by
  obtain ⟨x0, x1, x2, x3⟩ := x
  obtain ⟨y0, y1, y2, y3⟩ := y
  have h0 : x0 = y0 := h 0
  have h1 : x1 = y1 := h 1
  have h2 : x2 = y2 := h 2
  have h3 : x3 = y3 := h 3
  subst h0 h1 h2 h3
  rfl

@[simp] theorem colOf_byteIndex (r c : Fin 4) : colOf (byteIndex r c) = c := by
  apply Fin.ext; simp only [colOf, byteIndex]; omega

@[simp] theorem rowOf_byteIndex (r c : Fin 4) : rowOf (byteIndex r c) = r := by
  apply Fin.ext; simp only [rowOf, byteIndex]; omega

@[simp] theorem byteIndex_row_col (i : Fin 16) : byteIndex (rowOf i) (colOf i) = i := by
  apply Fin.ext; simp only [rowOf, colOf, byteIndex]; omega

theorem block_get_byteIndex (x : Block) (r c : Fin 4) : x.get (byteIndex r c) = (x.col c).get r := by
  simp [Block.get]

theorem block_ext {x y : Block} (h : ∀ i, x.get i = y.get i) : x = y :=
  block_ext_col fun c => quad_ext fun r => by simpa [block_get_byteIndex] using h (byteIndex r c)

theorem block_col_ofFn (f : Fin 16 → Byte) (c : Fin 4) : (Block.ofFn f).col c = Quad.ofFn fun r => f (byteIndex r c) := by
  revert c; exact forall_fin4.2 ⟨rfl, rfl, rfl, rfl⟩

@[simp] theorem block_get_ofFn (f : Fin 16 → Byte) (i : Fin 16) : (Block.ofFn f).get i = f i := by
  simp [Block.get, block_col_ofFn]

@[simp] theorem block_setCol_same (x : Block) (j : Fin 4) (q : Quad) : (x.setCol j q).col j = q := by
  revert j; exact forall_fin4.2 ⟨rfl, rfl, rfl, rfl⟩

@[simp] theorem block_setCol_other (x : Block) {j k : Fin 4} (q : Quad) (h : k ≠ j) : (x.setCol j q).col k = x.col k := by
  match j, k with
  | 0, 1 | 0, 2 | 0, 3 | 1, 0 | 1, 2 | 1, 3 | 2, 0 | 2, 1 | 2, 3 | 3, 0 | 3, 1 | 3, 2 => rfl
  | 0, 0 | 1, 1 | 2, 2 | 3, 3 => exact absurd rfl h

@[simp] theorem keyTable_get_set_same (t : KeyTable) (i : Fin 11) (k : Block) : (t.set i k).get i = k := by
  match i with
  | 0 | 1 | 2 | 3 | 4 | 5 | 6 | 7 | 8 | 9 | 10 => rfl

theorem pack_getLsbD (q : Quad) (i : Nat) :
    (pack q).getLsbD i = if i < 8 then q.b3.getLsbD i else if i < 16 then q.b2.getLsbD (i - 8)
      else if i < 24 then q.b1.getLsbD (i - 16) else if i < 32 then q.b0.getLsbD (i - 24) else false := by
  by_cases h0 : i < 8
  · simp [pack, h0, show i < 16 by omega, show i < 24 by omega, show i < 32 by omega]
  by_cases h1 : i < 16
  · simp [pack, h0, h1, show i < 24 by omega, show i < 32 by omega,
      BitVec.getLsbD_of_ge q.b3 i (by omega)]
  by_cases h2 : i < 24
  · simp [pack, h0, h1, h2, show i < 32 by omega, BitVec.getLsbD_of_ge q.b3 i (by omega),
      BitVec.getLsbD_of_ge q.b2 (i - 8) (by omega)]
  by_cases h3 : i < 32
  · simp [pack, h0, h1, h2, h3, BitVec.getLsbD_of_ge q.b3 i (by omega),
      BitVec.getLsbD_of_ge q.b2 (i - 8) (by omega), BitVec.getLsbD_of_ge q.b1 (i - 16) (by omega)]
  · simp [h0, h1, h2, h3, BitVec.getLsbD_of_ge (pack q) i (by omega)]

/-- R14: `unpack` is the inverse of `pack`. -/
@[simp] theorem unpack_pack (q : Quad) : unpack (pack q) = q := by
  obtain ⟨b0, b1, b2, b3⟩ := q
  simp only [unpack, Quad.mk.injEq]
  refine ⟨?_, ?_, ?_, ?_⟩ <;>
  · apply BitVec.eq_of_getLsbD_eq
    intro i hi
    rw [BitVec.getLsbD_extractLsb', pack_getLsbD]
    simp only [hi, decide_true, Bool.true_and]
    split_ifs <;> first | omega | (congr 1; omega)

/-- R14: `pack` is the inverse of `unpack`. -/
@[simp] theorem pack_unpack (v : Word) : pack (unpack v) = v := by
  apply BitVec.eq_of_getLsbD_eq
  intro i hi
  rw [pack_getLsbD]
  simp only [unpack, BitVec.getLsbD_extractLsb']
  split_ifs
  all_goals first
    | omega
    | simp only [Nat.zero_add, show i < 8 by omega, decide_true, Bool.true_and]
    | simp only [show 8 + (i - 8) = i by omega, show i - 8 < 8 by omega, decide_true, Bool.true_and]
    | simp only [show 16 + (i - 16) = i by omega, show i - 16 < 8 by omega, decide_true, Bool.true_and]
    | simp only [show 24 + (i - 24) = i by omega, show i - 24 < 8 by omega, decide_true, Bool.true_and]

/-- Everything `roundIndex` answers. -/
theorem roundIndex_eq (p : Nat) :
    (∃ h : p < 10, roundIndex p = some ⟨p, h⟩) ∨ (10 ≤ p ∧ roundIndex p = none) := by
  by_cases h : p < 10
  · exact .inl ⟨h, by simp [roundIndex, h]⟩
  · exact .inr ⟨by omega, by simp [roundIndex, h]⟩

theorem rangeLegal_iff (p q : Nat) : rangeLegal p q = true ↔ p < q ∧ q < 16 := by simp [rangeLegal]

/-- Everything `domainError` answers: no command has two domain errors (R186). -/
theorem domainError_cases (i : Instr) :
    domainError i = none ∨
      (domainError i = some .roundRange ∧ ∃ p, 10 ≤ p ∧ (i = .addrc p ∨ i = .keyexp p)) ∨
      (domainError i = some .rangeBounds ∧ ∃ p q, ¬(p < q ∧ q < 16) ∧ i = .subrng p q) := by
  cases i with
  | addrc p =>
    rcases roundIndex_eq p with ⟨h, e⟩ | ⟨h, e⟩
    · exact .inl (by simp [domainError, e])
    · exact .inr (.inl ⟨by simp [domainError, e], p, h, .inl rfl⟩)
  | keyexp p =>
    rcases roundIndex_eq p with ⟨h, e⟩ | ⟨h, e⟩
    · exact .inl (by simp [domainError, e])
    · exact .inr (.inl ⟨by simp [domainError, e], p, h, .inr rfl⟩)
  | subrng p q =>
    by_cases h : rangeLegal p q = true
    · exact .inl (by simp [domainError, h])
    · exact .inr (.inr ⟨by simp [domainError, h], p, q, by rwa [← rangeLegal_iff], rfl⟩)
  | _ => exact .inl rfl

end Sys2Proof.Laws
end

