-- ==== Sys2Proof/Laws/State.lean ====
section
/-! SUPPORT. What each named update of the state does to each field: one lemma per field per update, so that no later
proof unfolds a record update. -/

namespace Sys2Proof.Laws

open Sys2Proof Sys2Proof.Machine

variable (s : State)

@[simp] theorem setY_st (v : Byte) : (s.setY v).st = s.st := rfl
@[simp] theorem setY_ky (v : Byte) : (s.setY v).ky = s.ky := rfl
@[simp] theorem setY_w (v : Byte) : (s.setY v).w = s.w := rfl
@[simp] theorem setY_y (v : Byte) : (s.setY v).y = v := rfl
@[simp] theorem setY_ks (v : Byte) : (s.setY v).ks = s.ks := rfl
@[simp] theorem setY_busy (v : Byte) : (s.setY v).busy = s.busy := rfl
@[simp] theorem setY_done (v : Byte) : (s.setY v).done = s.done := rfl
@[simp] theorem setY_err (v : Byte) : (s.setY v).err = s.err := rfl
@[simp] theorem setY_errcode (v : Byte) : (s.setY v).errcode = s.errcode := rfl
@[simp] theorem setY_pend (v : Byte) : (s.setY v).pend = s.pend := rfl
@[simp] theorem setY_faultMark (v : Byte) : (s.setY v).faultMark = s.faultMark := rfl
@[simp] theorem setY_host (v : Byte) : (s.setY v).host = s.host := rfl
@[simp] theorem setY_reads (v : Byte) : (s.setY v).reads = s.reads := rfl
@[simp] theorem setY_coreWait (v : Byte) : (s.setY v).coreWait = s.coreWait := rfl
@[simp] theorem setY_draws (v : Byte) : (s.setY v).draws = s.draws := rfl
@[simp] theorem setY_inst (v : Byte) : (s.setY v).inst = s.inst := rfl

@[simp] theorem setW_st (v : Quad) : (s.setW v).st = s.st := rfl
@[simp] theorem setW_ky (v : Quad) : (s.setW v).ky = s.ky := rfl
@[simp] theorem setW_w (v : Quad) : (s.setW v).w = v := rfl
@[simp] theorem setW_y (v : Quad) : (s.setW v).y = s.y := rfl
@[simp] theorem setW_ks (v : Quad) : (s.setW v).ks = s.ks := rfl
@[simp] theorem setW_busy (v : Quad) : (s.setW v).busy = s.busy := rfl
@[simp] theorem setW_done (v : Quad) : (s.setW v).done = s.done := rfl
@[simp] theorem setW_err (v : Quad) : (s.setW v).err = s.err := rfl
@[simp] theorem setW_errcode (v : Quad) : (s.setW v).errcode = s.errcode := rfl
@[simp] theorem setW_pend (v : Quad) : (s.setW v).pend = s.pend := rfl
@[simp] theorem setW_faultMark (v : Quad) : (s.setW v).faultMark = s.faultMark := rfl
@[simp] theorem setW_host (v : Quad) : (s.setW v).host = s.host := rfl
@[simp] theorem setW_reads (v : Quad) : (s.setW v).reads = s.reads := rfl
@[simp] theorem setW_coreWait (v : Quad) : (s.setW v).coreWait = s.coreWait := rfl
@[simp] theorem setW_draws (v : Quad) : (s.setW v).draws = s.draws := rfl
@[simp] theorem setW_inst (v : Quad) : (s.setW v).inst = s.inst := rfl

@[simp] theorem setSt_st (v : Block) : (s.setSt v).st = v := rfl
@[simp] theorem setSt_ky (v : Block) : (s.setSt v).ky = s.ky := rfl
@[simp] theorem setSt_w (v : Block) : (s.setSt v).w = s.w := rfl
@[simp] theorem setSt_y (v : Block) : (s.setSt v).y = s.y := rfl
@[simp] theorem setSt_ks (v : Block) : (s.setSt v).ks = s.ks := rfl
@[simp] theorem setSt_busy (v : Block) : (s.setSt v).busy = s.busy := rfl
@[simp] theorem setSt_done (v : Block) : (s.setSt v).done = s.done := rfl
@[simp] theorem setSt_err (v : Block) : (s.setSt v).err = s.err := rfl
@[simp] theorem setSt_errcode (v : Block) : (s.setSt v).errcode = s.errcode := rfl
@[simp] theorem setSt_pend (v : Block) : (s.setSt v).pend = s.pend := rfl
@[simp] theorem setSt_faultMark (v : Block) : (s.setSt v).faultMark = s.faultMark := rfl
@[simp] theorem setSt_host (v : Block) : (s.setSt v).host = s.host := rfl
@[simp] theorem setSt_reads (v : Block) : (s.setSt v).reads = s.reads := rfl
@[simp] theorem setSt_coreWait (v : Block) : (s.setSt v).coreWait = s.coreWait := rfl
@[simp] theorem setSt_draws (v : Block) : (s.setSt v).draws = s.draws := rfl
@[simp] theorem setSt_inst (v : Block) : (s.setSt v).inst = s.inst := rfl

@[simp] theorem setKy_st (v : Block) : (s.setKy v).st = s.st := rfl
@[simp] theorem setKy_ky (v : Block) : (s.setKy v).ky = v := rfl
@[simp] theorem setKy_w (v : Block) : (s.setKy v).w = s.w := rfl
@[simp] theorem setKy_y (v : Block) : (s.setKy v).y = s.y := rfl
@[simp] theorem setKy_ks (v : Block) : (s.setKy v).ks = s.ks := rfl
@[simp] theorem setKy_busy (v : Block) : (s.setKy v).busy = s.busy := rfl
@[simp] theorem setKy_done (v : Block) : (s.setKy v).done = s.done := rfl
@[simp] theorem setKy_err (v : Block) : (s.setKy v).err = s.err := rfl
@[simp] theorem setKy_errcode (v : Block) : (s.setKy v).errcode = s.errcode := rfl
@[simp] theorem setKy_pend (v : Block) : (s.setKy v).pend = s.pend := rfl
@[simp] theorem setKy_faultMark (v : Block) : (s.setKy v).faultMark = s.faultMark := rfl
@[simp] theorem setKy_host (v : Block) : (s.setKy v).host = s.host := rfl
@[simp] theorem setKy_reads (v : Block) : (s.setKy v).reads = s.reads := rfl
@[simp] theorem setKy_coreWait (v : Block) : (s.setKy v).coreWait = s.coreWait := rfl
@[simp] theorem setKy_draws (v : Block) : (s.setKy v).draws = s.draws := rfl
@[simp] theorem setKy_inst (v : Block) : (s.setKy v).inst = s.inst := rfl

@[simp] theorem setKs_st (v : KeyTable) : (s.setKs v).st = s.st := rfl
@[simp] theorem setKs_ky (v : KeyTable) : (s.setKs v).ky = s.ky := rfl
@[simp] theorem setKs_w (v : KeyTable) : (s.setKs v).w = s.w := rfl
@[simp] theorem setKs_y (v : KeyTable) : (s.setKs v).y = s.y := rfl
@[simp] theorem setKs_ks (v : KeyTable) : (s.setKs v).ks = v := rfl
@[simp] theorem setKs_busy (v : KeyTable) : (s.setKs v).busy = s.busy := rfl
@[simp] theorem setKs_done (v : KeyTable) : (s.setKs v).done = s.done := rfl
@[simp] theorem setKs_err (v : KeyTable) : (s.setKs v).err = s.err := rfl
@[simp] theorem setKs_errcode (v : KeyTable) : (s.setKs v).errcode = s.errcode := rfl
@[simp] theorem setKs_pend (v : KeyTable) : (s.setKs v).pend = s.pend := rfl
@[simp] theorem setKs_faultMark (v : KeyTable) : (s.setKs v).faultMark = s.faultMark := rfl
@[simp] theorem setKs_host (v : KeyTable) : (s.setKs v).host = s.host := rfl
@[simp] theorem setKs_reads (v : KeyTable) : (s.setKs v).reads = s.reads := rfl
@[simp] theorem setKs_coreWait (v : KeyTable) : (s.setKs v).coreWait = s.coreWait := rfl
@[simp] theorem setKs_draws (v : KeyTable) : (s.setKs v).draws = s.draws := rfl
@[simp] theorem setKs_inst (v : KeyTable) : (s.setKs v).inst = s.inst := rfl

@[simp] theorem clearDone_st : s.clearDone.st = s.st := rfl
@[simp] theorem clearDone_ky : s.clearDone.ky = s.ky := rfl
@[simp] theorem clearDone_w : s.clearDone.w = s.w := rfl
@[simp] theorem clearDone_y : s.clearDone.y = s.y := rfl
@[simp] theorem clearDone_ks : s.clearDone.ks = s.ks := rfl
@[simp] theorem clearDone_busy : s.clearDone.busy = s.busy := rfl
@[simp] theorem clearDone_done : s.clearDone.done = false := rfl
@[simp] theorem clearDone_err : s.clearDone.err = s.err := rfl
@[simp] theorem clearDone_errcode : s.clearDone.errcode = s.errcode := rfl
@[simp] theorem clearDone_pend : s.clearDone.pend = s.pend := rfl
@[simp] theorem clearDone_faultMark : s.clearDone.faultMark = s.faultMark := rfl
@[simp] theorem clearDone_host : s.clearDone.host = s.host := rfl
@[simp] theorem clearDone_reads : s.clearDone.reads = s.reads := rfl
@[simp] theorem clearDone_coreWait : s.clearDone.coreWait = s.coreWait := rfl
@[simp] theorem clearDone_draws : s.clearDone.draws = s.draws := rfl
@[simp] theorem clearDone_inst : s.clearDone.inst = s.inst := rfl

@[simp] theorem setDone_st : s.setDone.st = s.st := rfl
@[simp] theorem setDone_ky : s.setDone.ky = s.ky := rfl
@[simp] theorem setDone_w : s.setDone.w = s.w := rfl
@[simp] theorem setDone_y : s.setDone.y = s.y := rfl
@[simp] theorem setDone_ks : s.setDone.ks = s.ks := rfl
@[simp] theorem setDone_busy : s.setDone.busy = s.busy := rfl
@[simp] theorem setDone_done : s.setDone.done = true := rfl
@[simp] theorem setDone_err : s.setDone.err = s.err := rfl
@[simp] theorem setDone_errcode : s.setDone.errcode = s.errcode := rfl
@[simp] theorem setDone_pend : s.setDone.pend = s.pend := rfl
@[simp] theorem setDone_faultMark : s.setDone.faultMark = s.faultMark := rfl
@[simp] theorem setDone_host : s.setDone.host = s.host := rfl
@[simp] theorem setDone_reads : s.setDone.reads = s.reads := rfl
@[simp] theorem setDone_coreWait : s.setDone.coreWait = s.coreWait := rfl
@[simp] theorem setDone_draws : s.setDone.draws = s.draws := rfl
@[simp] theorem setDone_inst : s.setDone.inst = s.inst := rfl

@[simp] theorem clearError_st : s.clearError.st = s.st := rfl
@[simp] theorem clearError_ky : s.clearError.ky = s.ky := rfl
@[simp] theorem clearError_w : s.clearError.w = s.w := rfl
@[simp] theorem clearError_y : s.clearError.y = s.y := rfl
@[simp] theorem clearError_ks : s.clearError.ks = s.ks := rfl
@[simp] theorem clearError_busy : s.clearError.busy = s.busy := rfl
@[simp] theorem clearError_done : s.clearError.done = s.done := rfl
@[simp] theorem clearError_err : s.clearError.err = false := rfl
@[simp] theorem clearError_errcode : s.clearError.errcode = .noError := rfl
@[simp] theorem clearError_pend : s.clearError.pend = s.pend := rfl
@[simp] theorem clearError_faultMark : s.clearError.faultMark = s.faultMark := rfl
@[simp] theorem clearError_host : s.clearError.host = s.host := rfl
@[simp] theorem clearError_reads : s.clearError.reads = s.reads := rfl
@[simp] theorem clearError_coreWait : s.clearError.coreWait = s.coreWait := rfl
@[simp] theorem clearError_draws : s.clearError.draws = s.draws := rfl
@[simp] theorem clearError_inst : s.clearError.inst = s.inst := rfl

@[simp] theorem recordError_st (code : ErrCode) : (s.recordError code).st = s.st := rfl
@[simp] theorem recordError_ky (code : ErrCode) : (s.recordError code).ky = s.ky := rfl
@[simp] theorem recordError_w (code : ErrCode) : (s.recordError code).w = s.w := rfl
@[simp] theorem recordError_y (code : ErrCode) : (s.recordError code).y = s.y := rfl
@[simp] theorem recordError_ks (code : ErrCode) : (s.recordError code).ks = s.ks := rfl
@[simp] theorem recordError_busy (code : ErrCode) : (s.recordError code).busy = s.busy := rfl
@[simp] theorem recordError_done (code : ErrCode) : (s.recordError code).done = s.done := rfl
@[simp] theorem recordError_err (code : ErrCode) : (s.recordError code).err = true := rfl
@[simp] theorem recordError_errcode (code : ErrCode) : (s.recordError code).errcode = if s.err then s.errcode else code := rfl
@[simp] theorem recordError_pend (code : ErrCode) : (s.recordError code).pend = s.pend := rfl
@[simp] theorem recordError_faultMark (code : ErrCode) : (s.recordError code).faultMark = true := rfl
@[simp] theorem recordError_host (code : ErrCode) : (s.recordError code).host = s.host := rfl
@[simp] theorem recordError_reads (code : ErrCode) : (s.recordError code).reads = s.reads := rfl
@[simp] theorem recordError_coreWait (code : ErrCode) : (s.recordError code).coreWait = s.coreWait := rfl
@[simp] theorem recordError_draws (code : ErrCode) : (s.recordError code).draws = s.draws := rfl
@[simp] theorem recordError_inst (code : ErrCode) : (s.recordError code).inst = s.inst := rfl

@[simp] theorem advanceDraws_st : s.advanceDraws.st = s.st := rfl
@[simp] theorem advanceDraws_ky : s.advanceDraws.ky = s.ky := rfl
@[simp] theorem advanceDraws_w : s.advanceDraws.w = s.w := rfl
@[simp] theorem advanceDraws_y : s.advanceDraws.y = s.y := rfl
@[simp] theorem advanceDraws_ks : s.advanceDraws.ks = s.ks := rfl
@[simp] theorem advanceDraws_busy : s.advanceDraws.busy = s.busy := rfl
@[simp] theorem advanceDraws_done : s.advanceDraws.done = s.done := rfl
@[simp] theorem advanceDraws_err : s.advanceDraws.err = s.err := rfl
@[simp] theorem advanceDraws_errcode : s.advanceDraws.errcode = s.errcode := rfl
@[simp] theorem advanceDraws_pend : s.advanceDraws.pend = s.pend := rfl
@[simp] theorem advanceDraws_faultMark : s.advanceDraws.faultMark = s.faultMark := rfl
@[simp] theorem advanceDraws_host : s.advanceDraws.host = s.host := rfl
@[simp] theorem advanceDraws_reads : s.advanceDraws.reads = s.reads := rfl
@[simp] theorem advanceDraws_coreWait : s.advanceDraws.coreWait = s.coreWait := rfl
@[simp] theorem advanceDraws_draws : s.advanceDraws.draws = s.draws + 1 := rfl
@[simp] theorem advanceDraws_inst : s.advanceDraws.inst = s.inst := rfl

@[simp] theorem setHost_st (ops : List HostOp) : (s.setHost ops).st = s.st := rfl
@[simp] theorem setHost_ky (ops : List HostOp) : (s.setHost ops).ky = s.ky := rfl
@[simp] theorem setHost_w (ops : List HostOp) : (s.setHost ops).w = s.w := rfl
@[simp] theorem setHost_y (ops : List HostOp) : (s.setHost ops).y = s.y := rfl
@[simp] theorem setHost_ks (ops : List HostOp) : (s.setHost ops).ks = s.ks := rfl
@[simp] theorem setHost_busy (ops : List HostOp) : (s.setHost ops).busy = s.busy := rfl
@[simp] theorem setHost_done (ops : List HostOp) : (s.setHost ops).done = s.done := rfl
@[simp] theorem setHost_err (ops : List HostOp) : (s.setHost ops).err = s.err := rfl
@[simp] theorem setHost_errcode (ops : List HostOp) : (s.setHost ops).errcode = s.errcode := rfl
@[simp] theorem setHost_pend (ops : List HostOp) : (s.setHost ops).pend = s.pend := rfl
@[simp] theorem setHost_faultMark (ops : List HostOp) : (s.setHost ops).faultMark = s.faultMark := rfl
@[simp] theorem setHost_host (ops : List HostOp) : (s.setHost ops).host = ops := rfl
@[simp] theorem setHost_reads (ops : List HostOp) : (s.setHost ops).reads = s.reads := rfl
@[simp] theorem setHost_coreWait (ops : List HostOp) : (s.setHost ops).coreWait = s.coreWait := rfl
@[simp] theorem setHost_draws (ops : List HostOp) : (s.setHost ops).draws = s.draws := rfl
@[simp] theorem setHost_inst (ops : List HostOp) : (s.setHost ops).inst = s.inst := rfl

@[simp] theorem recordRead_st (r : ReadRecord) : (s.recordRead r).st = s.st := rfl
@[simp] theorem recordRead_ky (r : ReadRecord) : (s.recordRead r).ky = s.ky := rfl
@[simp] theorem recordRead_w (r : ReadRecord) : (s.recordRead r).w = s.w := rfl
@[simp] theorem recordRead_y (r : ReadRecord) : (s.recordRead r).y = s.y := rfl
@[simp] theorem recordRead_ks (r : ReadRecord) : (s.recordRead r).ks = s.ks := rfl
@[simp] theorem recordRead_busy (r : ReadRecord) : (s.recordRead r).busy = s.busy := rfl
@[simp] theorem recordRead_done (r : ReadRecord) : (s.recordRead r).done = s.done := rfl
@[simp] theorem recordRead_err (r : ReadRecord) : (s.recordRead r).err = s.err := rfl
@[simp] theorem recordRead_errcode (r : ReadRecord) : (s.recordRead r).errcode = s.errcode := rfl
@[simp] theorem recordRead_pend (r : ReadRecord) : (s.recordRead r).pend = s.pend := rfl
@[simp] theorem recordRead_faultMark (r : ReadRecord) : (s.recordRead r).faultMark = s.faultMark := rfl
@[simp] theorem recordRead_host (r : ReadRecord) : (s.recordRead r).host = s.host := rfl
@[simp] theorem recordRead_reads (r : ReadRecord) : (s.recordRead r).reads = s.reads ++ [r] := rfl
@[simp] theorem recordRead_coreWait (r : ReadRecord) : (s.recordRead r).coreWait = s.coreWait := rfl
@[simp] theorem recordRead_draws (r : ReadRecord) : (s.recordRead r).draws = s.draws := rfl
@[simp] theorem recordRead_inst (r : ReadRecord) : (s.recordRead r).inst = s.inst := rfl

@[simp] theorem tickWait_st : s.tickWait.st = s.st := rfl
@[simp] theorem tickWait_ky : s.tickWait.ky = s.ky := rfl
@[simp] theorem tickWait_w : s.tickWait.w = s.w := rfl
@[simp] theorem tickWait_y : s.tickWait.y = s.y := rfl
@[simp] theorem tickWait_ks : s.tickWait.ks = s.ks := rfl
@[simp] theorem tickWait_busy : s.tickWait.busy = s.busy := rfl
@[simp] theorem tickWait_done : s.tickWait.done = s.done := rfl
@[simp] theorem tickWait_err : s.tickWait.err = s.err := rfl
@[simp] theorem tickWait_errcode : s.tickWait.errcode = s.errcode := rfl
@[simp] theorem tickWait_pend : s.tickWait.pend = s.pend := rfl
@[simp] theorem tickWait_faultMark : s.tickWait.faultMark = s.faultMark := rfl
@[simp] theorem tickWait_host : s.tickWait.host = s.host := rfl
@[simp] theorem tickWait_reads : s.tickWait.reads = s.reads := rfl
@[simp] theorem tickWait_coreWait : s.tickWait.coreWait = s.coreWait - 1 := rfl
@[simp] theorem tickWait_draws : s.tickWait.draws = s.draws := rfl
@[simp] theorem tickWait_inst : s.tickWait.inst = s.inst := rfl

@[simp] theorem raiseError_st (code : ErrCode) : (raiseError code s).st = s.st := rfl
@[simp] theorem raiseError_ky (code : ErrCode) : (raiseError code s).ky = s.ky := rfl
@[simp] theorem raiseError_w (code : ErrCode) : (raiseError code s).w = s.w := rfl
@[simp] theorem raiseError_y (code : ErrCode) : (raiseError code s).y = s.y := rfl
@[simp] theorem raiseError_ks (code : ErrCode) : (raiseError code s).ks = s.ks := rfl
@[simp] theorem raiseError_busy (code : ErrCode) : (raiseError code s).busy = s.busy := rfl
@[simp] theorem raiseError_done (code : ErrCode) : (raiseError code s).done = s.done := rfl
@[simp] theorem raiseError_err (code : ErrCode) : (raiseError code s).err = true := rfl
@[simp] theorem raiseError_errcode (code : ErrCode) : (raiseError code s).errcode = if s.err then s.errcode else code := rfl
@[simp] theorem raiseError_pend (code : ErrCode) : (raiseError code s).pend = s.pend := rfl
@[simp] theorem raiseError_faultMark (code : ErrCode) : (raiseError code s).faultMark = true := rfl
@[simp] theorem raiseError_host (code : ErrCode) : (raiseError code s).host = s.host := rfl
@[simp] theorem raiseError_reads (code : ErrCode) : (raiseError code s).reads = s.reads := rfl
@[simp] theorem raiseError_coreWait (code : ErrCode) : (raiseError code s).coreWait = s.coreWait := rfl
@[simp] theorem raiseError_draws (code : ErrCode) : (raiseError code s).draws = s.draws := rfl
@[simp] theorem raiseError_inst (code : ErrCode) : (raiseError code s).inst = s.inst := rfl

@[simp] theorem rejectCommand_st (code : ErrCode) : (rejectCommand code s).st = s.st := rfl
@[simp] theorem rejectCommand_ky (code : ErrCode) : (rejectCommand code s).ky = s.ky := rfl
@[simp] theorem rejectCommand_w (code : ErrCode) : (rejectCommand code s).w = s.w := rfl
@[simp] theorem rejectCommand_y (code : ErrCode) : (rejectCommand code s).y = s.y := rfl
@[simp] theorem rejectCommand_ks (code : ErrCode) : (rejectCommand code s).ks = s.ks := rfl
@[simp] theorem rejectCommand_busy (code : ErrCode) : (rejectCommand code s).busy = s.busy := rfl
@[simp] theorem rejectCommand_done (code : ErrCode) : (rejectCommand code s).done = true := rfl
@[simp] theorem rejectCommand_err (code : ErrCode) : (rejectCommand code s).err = true := rfl
@[simp] theorem rejectCommand_errcode (code : ErrCode) : (rejectCommand code s).errcode = if s.err then s.errcode else code := rfl
@[simp] theorem rejectCommand_pend (code : ErrCode) : (rejectCommand code s).pend = s.pend := rfl
@[simp] theorem rejectCommand_faultMark (code : ErrCode) : (rejectCommand code s).faultMark = true := rfl
@[simp] theorem rejectCommand_host (code : ErrCode) : (rejectCommand code s).host = s.host := rfl
@[simp] theorem rejectCommand_reads (code : ErrCode) : (rejectCommand code s).reads = s.reads := rfl
@[simp] theorem rejectCommand_coreWait (code : ErrCode) : (rejectCommand code s).coreWait = s.coreWait := rfl
@[simp] theorem rejectCommand_draws (code : ErrCode) : (rejectCommand code s).draws = s.draws := rfl
@[simp] theorem rejectCommand_inst (code : ErrCode) : (rejectCommand code s).inst = s.inst := rfl

@[simp] theorem acceptCommand_st (v : Word) : (acceptCommand v s).st = s.st := rfl
@[simp] theorem acceptCommand_ky (v : Word) : (acceptCommand v s).ky = s.ky := rfl
@[simp] theorem acceptCommand_w (v : Word) : (acceptCommand v s).w = s.w := rfl
@[simp] theorem acceptCommand_y (v : Word) : (acceptCommand v s).y = s.y := rfl
@[simp] theorem acceptCommand_ks (v : Word) : (acceptCommand v s).ks = s.ks := rfl
@[simp] theorem acceptCommand_busy (v : Word) : (acceptCommand v s).busy = true := rfl
@[simp] theorem acceptCommand_done (v : Word) : (acceptCommand v s).done = false := rfl
@[simp] theorem acceptCommand_err (v : Word) : (acceptCommand v s).err = s.err := rfl
@[simp] theorem acceptCommand_errcode (v : Word) : (acceptCommand v s).errcode = s.errcode := rfl
@[simp] theorem acceptCommand_pend (v : Word) : (acceptCommand v s).pend = some v := rfl
@[simp] theorem acceptCommand_faultMark (v : Word) : (acceptCommand v s).faultMark = s.faultMark := rfl
@[simp] theorem acceptCommand_host (v : Word) : (acceptCommand v s).host = s.host := rfl
@[simp] theorem acceptCommand_reads (v : Word) : (acceptCommand v s).reads = s.reads := rfl
@[simp] theorem acceptCommand_coreWait (v : Word) : (acceptCommand v s).coreWait = Config.coreDelay s.inst s.draws := rfl
@[simp] theorem acceptCommand_draws (v : Word) : (acceptCommand v s).draws = s.draws + 1 := rfl
@[simp] theorem acceptCommand_inst (v : Word) : (acceptCommand v s).inst = s.inst := rfl

@[simp] theorem completeCommand_st : (completeCommand s).st = s.st := rfl
@[simp] theorem completeCommand_ky : (completeCommand s).ky = s.ky := rfl
@[simp] theorem completeCommand_w : (completeCommand s).w = s.w := rfl
@[simp] theorem completeCommand_y : (completeCommand s).y = s.y := rfl
@[simp] theorem completeCommand_ks : (completeCommand s).ks = s.ks := rfl
@[simp] theorem completeCommand_busy : (completeCommand s).busy = false := rfl
@[simp] theorem completeCommand_done : (completeCommand s).done = true := rfl
@[simp] theorem completeCommand_err : (completeCommand s).err = s.err := rfl
@[simp] theorem completeCommand_errcode : (completeCommand s).errcode = s.errcode := rfl
@[simp] theorem completeCommand_pend : (completeCommand s).pend = none := rfl
@[simp] theorem completeCommand_faultMark : (completeCommand s).faultMark = s.faultMark := rfl
@[simp] theorem completeCommand_host : (completeCommand s).host = s.host := rfl
@[simp] theorem completeCommand_reads : (completeCommand s).reads = s.reads := rfl
@[simp] theorem completeCommand_coreWait : (completeCommand s).coreWait = 0 := rfl
@[simp] theorem completeCommand_draws : (completeCommand s).draws = s.draws := rfl
@[simp] theorem completeCommand_inst : (completeCommand s).inst = s.inst := rfl

@[simp] theorem latchDue_st (v : Word) : (latchDue v s).st = s.st := rfl
@[simp] theorem latchDue_ky (v : Word) : (latchDue v s).ky = s.ky := rfl
@[simp] theorem latchDue_w (v : Word) : (latchDue v s).w = s.w := rfl
@[simp] theorem latchDue_y (v : Word) : (latchDue v s).y = s.y := rfl
@[simp] theorem latchDue_ks (v : Word) : (latchDue v s).ks = s.ks := rfl
@[simp] theorem latchDue_busy (v : Word) : (latchDue v s).busy = true := rfl
@[simp] theorem latchDue_done (v : Word) : (latchDue v s).done = false := rfl
@[simp] theorem latchDue_err (v : Word) : (latchDue v s).err = s.err := rfl
@[simp] theorem latchDue_errcode (v : Word) : (latchDue v s).errcode = s.errcode := rfl
@[simp] theorem latchDue_pend (v : Word) : (latchDue v s).pend = some v := rfl
@[simp] theorem latchDue_faultMark (v : Word) : (latchDue v s).faultMark = s.faultMark := rfl
@[simp] theorem latchDue_host (v : Word) : (latchDue v s).host = s.host := rfl
@[simp] theorem latchDue_reads (v : Word) : (latchDue v s).reads = s.reads := rfl
@[simp] theorem latchDue_coreWait (v : Word) : (latchDue v s).coreWait = 0 := rfl
@[simp] theorem latchDue_draws (v : Word) : (latchDue v s).draws = s.draws := rfl
@[simp] theorem latchDue_inst (v : Word) : (latchDue v s).inst = s.inst := rfl

@[simp] theorem hostReset_st : (hostReset s).st = Block.zero := rfl
@[simp] theorem hostReset_ky : (hostReset s).ky = Block.zero := rfl
@[simp] theorem hostReset_w : (hostReset s).w = Quad.zero := rfl
@[simp] theorem hostReset_y : (hostReset s).y = 0 := rfl
@[simp] theorem hostReset_ks : (hostReset s).ks = KeyTable.zero := rfl
@[simp] theorem hostReset_busy : (hostReset s).busy = false := rfl
@[simp] theorem hostReset_done : (hostReset s).done = false := rfl
@[simp] theorem hostReset_err : (hostReset s).err = false := rfl
@[simp] theorem hostReset_errcode : (hostReset s).errcode = .noError := rfl
@[simp] theorem hostReset_pend : (hostReset s).pend = none := rfl
@[simp] theorem hostReset_faultMark : (hostReset s).faultMark = s.faultMark := rfl
@[simp] theorem hostReset_host : (hostReset s).host = s.host := rfl
@[simp] theorem hostReset_reads : (hostReset s).reads = s.reads := rfl
@[simp] theorem hostReset_coreWait : (hostReset s).coreWait = 0 := rfl
@[simp] theorem hostReset_draws : (hostReset s).draws = s.draws := rfl
@[simp] theorem hostReset_inst : (hostReset s).inst = s.inst := rfl

end Sys2Proof.Laws
end

