-- ==== Sys2Proof/Laws/Bus.lean ====
section
/-! SUPPORT. What each bus operation can do (Machine/Bus.lean). -/

namespace Sys2Proof.Laws

open Sys2Proof Sys2Proof.Machine

/-- The register map names each address once (R26). -/
theorem regAt_regAddr (r : RegName) : regAt (regAddr r) = some r := by
  cases r with
  | cmd => rfl
  | status => rfl
  | y => rfl
  | w => rfl
  | st j => revert j; exact forall_fin4.2 ⟨rfl, rfl, rfl, rfl⟩
  | ky j => revert j; exact forall_fin4.2 ⟨rfl, rfl, rfl, rfl⟩
  | ks i j => revert i j; decide

/-- The address of a named word is its register's address (R26). -/
theorem regAddr_regAt : ∀ (a : BusAddr), (regAt a).all (fun r => regAddr r == a) = true := by decide

theorem isStWord_regAddr : ∀ j : Fin 4, isStWord (regAddr (.st j)) = true := by decide

theorem isKyWord_regAddr : ∀ j : Fin 4, isKyWord (regAddr (.ky j)) = true := by decide

/-- Everything an issue can do (R183). -/
theorem issue_cases (v : Word) (s : State) :
    (s.busy = true ∧ issue v s = raiseError .busyWrite s) ∨
      (s.busy = false ∧ (∃ e, decode v = .error e) ∧ issue v s = rejectCommand .illegalCmd s) ∨
      (s.busy = false ∧ ∃ i code, decode v = .ok i ∧ domainError i = some code ∧ issue v s = rejectCommand code s) ∨
      (s.busy = false ∧ ∃ i, decode v = .ok i ∧ domainError i = none ∧ issue v s = acceptCommand v s) := by
  cases hb : s.busy with
  | true => exact .inl ⟨rfl, by simp [issue, hb]⟩
  | false =>
    cases hd : decode v with
    | error e => exact .inr (.inl ⟨rfl, ⟨e, rfl⟩, by simp [issue, hb, hd]⟩)
    | ok i =>
      cases hc : domainError i with
      | some code => exact .inr (.inr (.inl ⟨rfl, i, code, rfl, hc, by simp [issue, hb, hd, hc]⟩))
      | none => exact .inr (.inr (.inr ⟨rfl, i, rfl, hc, by simp [issue, hb, hd, hc]⟩))

/-- Everything a STATUS write can do (R28). -/
theorem statusWrite_cases (v : Word) (s : State) :
    statusWrite v s = s ∨ statusWrite v s = s.clearDone ∨
      (v.getLsbD 2 = true ∧ (statusWrite v s = s.clearError ∨ statusWrite v s = s.clearDone.clearError)) := by
  cases h1 : v.getLsbD 1 <;> cases h2 : v.getLsbD 2 <;>
    simp only [statusWrite, h1, h2, if_true, Bool.false_eq_true, if_false, true_or, or_true, and_self]

/-- Everything a bus write can do (R52). -/
theorem busWrite_cases (a : BusAddr) (v : Word) (s : State) :
    (a = 0x00 ∧ busWrite a v s = issue v s) ∨ (a = 0x01 ∧ busWrite a v s = statusWrite v s) ∨ busWrite a v s = s ∨
      (s.busy = true ∧ (a = 0x03 ∨ isStWord a = true ∨ isKyWord a = true) ∧ busWrite a v s = raiseError .busyWrite s) ∨
      (s.busy = false ∧ (busWrite a v s = s.setW (unpack v) ∨ (∃ x, busWrite a v s = s.setSt x) ∨
        ∃ x, busWrite a v s = s.setKy x)) := by
  have ha := regAddr_regAt a
  cases hr : regAt a with
  | none => exact .inr (.inr (.inl (by simp [busWrite, hr])))
  | some r =>
    rw [hr] at ha
    have ha' : regAddr r = a := by simpa using ha
    cases r with
    | cmd => exact .inl ⟨ha'.symm, by simp [busWrite, hr]⟩
    | status => exact .inr (.inl ⟨ha'.symm, by simp [busWrite, hr]⟩)
    | y => exact .inr (.inr (.inl (by simp [busWrite, hr])))
    | ks i j => exact .inr (.inr (.inl (by simp [busWrite, hr])))
    | w =>
      cases hb : s.busy with
      | true => exact .inr (.inr (.inr (.inl ⟨rfl, .inl ha'.symm, by simp [busWrite, hr, dataWrite, hb]⟩)))
      | false => exact .inr (.inr (.inr (.inr ⟨rfl, .inl (by simp [busWrite, hr, dataWrite, hb])⟩)))
    | st j =>
      cases hb : s.busy with
      | true =>
        exact .inr (.inr (.inr (.inl ⟨rfl, .inr (.inl (ha' ▸ isStWord_regAddr j)), by simp [busWrite, hr, dataWrite, hb]⟩)))
      | false => exact .inr (.inr (.inr (.inr ⟨rfl, .inr (.inl ⟨_, by simp only [busWrite, hr, dataWrite, hb]; rfl⟩)⟩)))
    | ky j =>
      cases hb : s.busy with
      | true =>
        exact .inr (.inr (.inr (.inl ⟨rfl, .inr (.inr (ha' ▸ isKyWord_regAddr j)), by simp [busWrite, hr, dataWrite, hb]⟩)))
      | false => exact .inr (.inr (.inr (.inr ⟨rfl, .inr (.inr ⟨_, by simp only [busWrite, hr, dataWrite, hb]; rfl⟩)⟩)))

/-- Everything a bus read can do to the state: nothing, or it draws a free value (R51, R204). -/
theorem busRead_cases (a : BusAddr) (s : State) :
    busRead a s = (busPeek a s, s) ∨ busRead a s = (Config.busyRead s.inst s.draws, s.advanceDraws) := by
  cases h : (s.busy && pendingWrites s a) <;> simp [busRead, h]

/-- STATUS is in no write set, so its reads are exact (R204). -/
theorem busRead_status (s : State) : busRead 0x01 s = (statusWord s, s) := by
  have h : pendingWrites s 0x01 = false := by
    unfold pendingWrites
    split
    · rfl
    · split
      · rename_i i _; cases i <;> rfl
      · rfl
  have hr : regAt 0x01 = some .status := rfl
  simp only [busRead, h, Bool.and_false, Bool.false_eq_true, if_false, busPeek, hr]

/-- Bit 0 of STATUS is BUSY (R28). -/
theorem statusWord_bit0 (s : State) : (statusWord s).getLsbD 0 = s.busy := by
  cases hb : s.busy <;> cases hd : s.done <;> cases he : s.err <;> cases hc : s.errcode <;>
    simp [statusWord, bitWord, hb, hd, he, hc, ErrCode.bits]

end Sys2Proof.Laws
end

