-- ==== Sys2Proof/Laws/Assembler.lean ====
section
/-! SUPPORT. What the Host's reads of a 16-byte register give back (30_encoding.md rule R83). -/

namespace Sys2Proof.Laws

open Sys2Proof Sys2Proof.Machine

/-- RD16 unpacks the four words last read, whatever the Host had read before. -/
theorem rd16Bytes_append (reg : Fin 4 → RegName) (before : List ReadRecord) (name : Option Token) (v0 v1 v2 v3 : Word) :
    rd16Bytes reg (before ++ [⟨regAddr (reg 0), v0, name⟩, ⟨regAddr (reg 1), v1, name⟩, ⟨regAddr (reg 2), v2, name⟩,
      ⟨regAddr (reg 3), v3, name⟩]) = some ⟨unpack v0, unpack v1, unpack v2, unpack v3⟩ := by
  simp [rd16Bytes]

/-- And so do the four words read under a name. -/
theorem rd16Named_append (reg : Fin 4 → RegName) (before : List ReadRecord) (n : Token) (v0 v1 v2 v3 : Word) :
    rd16Named reg n (before ++ [⟨regAddr (reg 0), v0, some n⟩, ⟨regAddr (reg 1), v1, some n⟩,
      ⟨regAddr (reg 2), v2, some n⟩, ⟨regAddr (reg 3), v3, some n⟩]) =
      some ⟨unpack v0, unpack v1, unpack v2, unpack v3⟩ := by
  simp only [rd16Named, List.filter_append, List.filter_cons, BEq.rfl, if_true, List.filter_nil]
  exact rd16Bytes_append reg _ (some n) v0 v1 v2 v3

end Sys2Proof.Laws
end

