-- ==== Sys2Proof/Laws/Exec.lean ====
section
/-! SUPPORT. What the meanings can do: the two instructions with a domain on each side of it, and the one inversion lemma
of exec. -/

namespace Sys2Proof.Laws

open Sys2Proof Sys2Proof.Machine

theorem exec_subrng_legal {p q : Nat} (h : rangeLegal p q = true) (s : State) :
    exec (.subrng p q) s = .next (s.setSt (subRange p q s.st)) := by simp [exec, execSubrng, h]

theorem exec_subrng_illegal {p q : Nat} (h : rangeLegal p q = false) (s : State) :
    exec (.subrng p q) s = .next (raiseError .rangeBounds s) := by simp [exec, execSubrng, h]

theorem exec_addrc_round {p : Nat} {r : Fin 10} (h : roundIndex p = some r) (s : State) :
    exec (.addrc p) s = .next (s.setW (addRcon s.w r)) := by simp [exec, execAddrc, h]

theorem exec_addrc_noRound {p : Nat} (h : roundIndex p = none) (s : State) :
    exec (.addrc p) s = .next (raiseError .roundRange s) := by simp [exec, execAddrc, h]

theorem exec_keyexp_round {p : Nat} {r : Fin 10} (h : roundIndex p = some r) (s : State) :
    exec (.keyexp p) s = .next (s.setKy (expandKey r s.ky)) := by simp [exec, execKeyexp, h]

theorem exec_keyexp_noRound {p : Nat} (h : roundIndex p = none) (s : State) :
    exec (.keyexp p) s = .next (raiseError .roundRange s) := by simp [exec, execKeyexp, h]

/-- Everything a meaning can do: it raises its domain error and nothing else, or it changes data registers and nothing
else. -/
inductive ExecResult (i : Instr) (s : State) : State → Prop where
  | raised (code : ErrCode) (h : domainError i = some code) : ExecResult i s (raiseError code s)
  | wroteY (h : domainError i = none) (v : Byte) (hi : (∃ a b, i = .gmul a b) ∨ ∃ a, i = .sbyte a) :
      ExecResult i s (s.setY v)
  | wroteW (h : domainError i = none) (v : Quad) (hi : i = .rotw ∨ i = .subw ∨ ∃ p, i = .addrc p) :
      ExecResult i s (s.setW v)
  | wroteSt (h : domainError i = none) (v : Block)
      (hi : (∃ p q, i = .subrng p q) ∨ i = .shrows ∨ i = .mixcol ∨ i = .addrk ∨ i = .subst) : ExecResult i s (s.setSt v)
  | wroteKy (h : domainError i = none) (v : Block) (hi : ∃ p, i = .keyexp p) : ExecResult i s (s.setKy v)
  | wroteKs (h : domainError i = none) (v : KeyTable) (hi : i = .keysched) : ExecResult i s (s.setKs v)
  | wroteStKs (h : domainError i = none) (v : Block) (t : KeyTable) (hi : i = .encrypt) :
      ExecResult i s ((s.setSt v).setKs t)

/-- Every meaning answers a next state, and it is one of those cases. -/
theorem exec_cases (i : Instr) (s : State) : ∃ t, exec i s = .next t ∧ ExecResult i s t := by
  cases i with
  | gmul a b => exact ⟨_, rfl, .wroteY rfl _ (.inl ⟨a, b, rfl⟩)⟩
  | sbyte a => exact ⟨_, rfl, .wroteY rfl _ (.inr ⟨a, rfl⟩)⟩
  | subrng p q =>
    by_cases h : rangeLegal p q = true
    · exact ⟨_, exec_subrng_legal h s, .wroteSt (by simp [domainError, h]) _ (.inl ⟨p, q, rfl⟩)⟩
    · rw [Bool.not_eq_true] at h
      exact ⟨_, exec_subrng_illegal h s, .raised _ (by simp [domainError, h])⟩
  | rotw => exact ⟨_, rfl, .wroteW rfl _ (.inl rfl)⟩
  | subw => exact ⟨_, rfl, .wroteW rfl _ (.inr (.inl rfl))⟩
  | addrc p =>
    rcases roundIndex_eq p with ⟨h, e⟩ | ⟨h, e⟩
    · exact ⟨_, exec_addrc_round e s, .wroteW (by simp [domainError, e]) _ (.inr (.inr ⟨p, rfl⟩))⟩
    · exact ⟨_, exec_addrc_noRound e s, .raised _ (by simp [domainError, e])⟩
  | keyexp p =>
    rcases roundIndex_eq p with ⟨h, e⟩ | ⟨h, e⟩
    · exact ⟨_, exec_keyexp_round e s, .wroteKy (by simp [domainError, e]) _ ⟨p, rfl⟩⟩
    · exact ⟨_, exec_keyexp_noRound e s, .raised _ (by simp [domainError, e])⟩
  | keysched => exact ⟨_, rfl, .wroteKs rfl _ rfl⟩
  | shrows => exact ⟨_, rfl, .wroteSt rfl _ (.inr (.inl rfl))⟩
  | mixcol => exact ⟨_, rfl, .wroteSt rfl _ (.inr (.inr (.inl rfl)))⟩
  | addrk => exact ⟨_, rfl, .wroteSt rfl _ (.inr (.inr (.inr (.inl rfl))))⟩
  | subst => exact ⟨_, rfl, .wroteSt rfl _ (.inr (.inr (.inr (.inr rfl))))⟩
  | encrypt => exact ⟨_, rfl, .wroteStKs rfl _ _ rfl⟩

end Sys2Proof.Laws
end

