-- ==== Sys2Proof/Laws/PerInstr.lean ====
section
/-! SUPPORT. Statements about every command as syntax, one lemma per constructor. -/

namespace Sys2Proof.Laws.EncodeShape

open Sys2Proof

/-- OP of each command (R72). -/
def opcodeOf : Instr → BitVec 8
  | .gmul _ _ => 0x01
  | .sbyte _ => 0x02
  | .subrng _ _ => 0x03
  | .rotw => 0x04
  | .subw => 0x05
  | .addrc _ => 0x06
  | .keyexp _ => 0x07
  | .keysched => 0x08
  | .shrows => 0x09
  | .mixcol => 0x0A
  | .addrk => 0x0B
  | .subst => 0x0C
  | .encrypt => 0x0D

/-- Every command's word carries its opcode in OP, whatever its operands (R70, R72). -/
def Statement (i : Instr) : Prop := opField (encode i) = opcodeOf i

theorem opField_commandWord (op : BitVec 8) (p q : Nat) (a b : Byte) : opField (commandWord op p q a b) = op := by
  apply BitVec.eq_of_getLsbD_eq
  intro i hi
  simp only [opField, commandWord, BitVec.getLsbD_extractLsb', BitVec.getLsbD_append, hi, decide_true, Bool.true_and]
  simp [show ¬(24 + i < 8) by omega, show ¬(24 + i - 8 < 8) by omega, show ¬(24 + i - 8 - 8 < 4) by omega,
    show ¬(24 + i - 8 - 8 - 4 < 4) by omega, show 24 + i - 8 - 8 - 4 - 4 = i by omega]

theorem gmul (a b : Byte) : Statement (.gmul a b) := opField_commandWord ..
theorem sbyte (a : Byte) : Statement (.sbyte a) := opField_commandWord ..
theorem subrng (p q : Nat) : Statement (.subrng p q) := opField_commandWord ..
theorem rotw : Statement .rotw := opField_commandWord ..
theorem subw : Statement .subw := opField_commandWord ..
theorem addrc (p : Nat) : Statement (.addrc p) := opField_commandWord ..
theorem keyexp (p : Nat) : Statement (.keyexp p) := opField_commandWord ..
theorem keysched : Statement .keysched := opField_commandWord ..
theorem shrows : Statement .shrows := opField_commandWord ..
theorem mixcol : Statement .mixcol := opField_commandWord ..
theorem addrk : Statement .addrk := opField_commandWord ..
theorem subst : Statement .subst := opField_commandWord ..
theorem encrypt : Statement .encrypt := opField_commandWord ..

end Sys2Proof.Laws.EncodeShape
end

