-- ==== Sys2Proof/Laws/Step.lean ====
section
/-! SUPPORT. What one step can do: the one inversion lemma of the Host's operations and of the step. -/

namespace Sys2Proof.Laws

open Sys2Proof Sys2Proof.Machine

/-- Everything one Host operation can do when it answers a next state (R66). -/
theorem hostPerform_cases {op : HostOp} {s t : State} (h : hostPerform op s = .next t) :
    (∃ a v, (op = .write a v ∨ ∃ b n, op = .platformWrite b n v ∧ platformWord s.inst b n = .ok a) ∧ t = busWrite a v s) ∨
      (∃ a name, t = hostRead a name s) ∨ (op = .wait ∧ t = hostPoll s) ∨ (op = .assertReset ∧ t = hostReset s) := by
  cases op with
  | write a v => cases h; exact .inl ⟨a, v, .inl rfl, rfl⟩
  | read a name => cases h; exact .inr (.inl ⟨a, name, rfl⟩)
  | wait => cases h; exact .inr (.inr (.inl ⟨rfl, rfl⟩))
  | assertReset => cases h; exact .inr (.inr (.inr ⟨rfl, rfl⟩))
  | platformRead b n =>
    cases hp : platformWord s.inst b n with
    | ok a => simp only [hostPerform, hp] at h; cases h; exact .inr (.inl ⟨a, none, rfl⟩)
    | error r => simp [hostPerform, hp] at h
  | platformWrite b n v =>
    cases hp : platformWord s.inst b n with
    | ok a => simp only [hostPerform, hp] at h; cases h; exact .inl ⟨a, v, .inr ⟨b, n, rfl, hp⟩, rfl⟩
    | error r => simp [hostPerform, hp] at h

/-- Everything one poll of WAIT can do: it records the STATUS it read, and stays while BUSY = 1 (R83). -/
theorem hostPoll_eq (s : State) :
    hostPoll s = if s.busy then (s.recordRead ⟨0x01, statusWord s, waitName⟩).setHost (.wait :: s.host)
      else s.recordRead ⟨0x01, statusWord s, waitName⟩ := by
  simp only [hostPoll, hostRead, busRead_status, statusWord_bit0]

/-- Everything one step can do (R60): a Core step, a Host operation, or nothing when no agent has a move (R67). -/
theorem step_cases {s t : State} (h : step s = .next t) :
    (coreMoves s = true ∧ ∃ v i u, s.pend = some v ∧ decode v = .ok i ∧ exec i s = .next u ∧ ExecResult i s u ∧
        t = completeCommand u) ∨
      (coreMoves s = false ∧ ∃ op rest, s.host = op :: rest ∧ hostPerform op (s.tickWait.setHost rest) = .next t) ∨
      (coreMoves s = false ∧ s.host = [] ∧ s.pend = none ∧ t = s) := by
  cases hm : coreMoves s with
  | true =>
    refine .inl ⟨rfl, ?_⟩
    simp only [step, hm, if_true] at h
    cases hp : s.pend with
    | none => simp [coreMoves, hp] at hm
    | some v =>
      cases hd : decode v with
      | error e => simp [coreStep, hp, hd] at h
      | ok i =>
        obtain ⟨u, hu, hr⟩ := exec_cases i s
        simp only [coreStep, hp, hd, hu, completing] at h
        cases h
        exact ⟨v, i, u, rfl, hd, hu, hr, rfl⟩
  | false =>
    simp only [step, hm, Bool.false_eq_true, if_false] at h
    cases hh : s.host with
    | cons op rest => exact .inr (.inl ⟨rfl, op, rest, rfl, by simpa [hostStep, hh] using h⟩)
    | nil =>
      simp only [hostStep, hh] at h
      cases h
      cases hp : s.pend with
      | none => exact .inr (.inr ⟨rfl, rfl, rfl, rfl⟩)
      | some v => simp [coreMoves, hp, hh] at hm

end Sys2Proof.Laws
end

