-- ==== Sys2Proof/Laws/Safety.lean ====
section
/-! SUPPORT. Running steps and command lists, one step at a time. -/

namespace Sys2Proof.Laws

open Sys2Proof Sys2Proof.Machine

@[simp] theorem runSteps_zero (s : State) : runSteps 0 s = .next s := rfl

/-- A run is its first step and then the rest. -/
theorem runSteps_succ (n : Nat) {s t : State} (h : step s = .next t) : runSteps (n + 1) s = runSteps n t := by
  simp only [runSteps, Host.Core.run, core, h]

@[simp] theorem execAll_nil (s : State) : execAll [] s = .next s := rfl

/-- A command list is its first command and then the rest. -/
theorem execAll_cons {i : Instr} {s t : State} (rest : List Instr) (h : exec i s = .next t) :
    execAll (i :: rest) s = execAll rest t := by simp [execAll, h]

end Sys2Proof.Laws
end

