-- ==== Sys2Proof/Tests/Slice0.lean ====
section
/-! SUPPORT. The model's own tests: expected values are those of spec/95_test_vectors.md (its section is named at each),
and the words are written out from 30_encoding.md. Then the witnesses: for each statement with hypotheses, a concrete
state and operands that meet them. -/

namespace Sys2Proof.Tests

open Sys2Proof Sys2Proof.Machine Sys2Proof.Spec

/-- The next state of an outcome, if it is one. -/
def nextOf : Host.Outcome State Fault Refusal → Option State
  | .next s => some s
  | _ => none

/-- The block with these four bus words. -/
def blockOf (w0 w1 w2 w3 : Word) : Block := ⟨unpack w0, unpack w1, unpack w2, unpack w3⟩

/-- The key of the source's fixtures (95, section 1). -/
def keyK : Block := blockOf 0x54686174 0x73206D79 0x204B756E 0x67204675

/-- The plaintext of the source's fixture S6. -/
def plainS6 : Block := blockOf 0x54776F20 0x4F6E6520 0x4E696E65 0x2054776F

/-- ST[i] = i. -/
def countBlock : Block := blockOf 0x00010203 0x04050607 0x08090A0B 0x0C0D0E0F

/-- The reset state with these operand registers. -/
def withRegs (st ky : Block) (w : Word) : State := ((State.reset.setSt st).setKy ky).setW (unpack w)

/-! ### Well-formedness: each check refuses an ill-formed term -/

theorem test_wf_subrng_start_too_large : (Instr.subrng 16 3).wf = false := by decide
theorem test_wf_subrng_end_too_large : (Instr.subrng 3 16).wf = false := by decide
theorem test_wf_addrc_too_large : (Instr.addrc 16).wf = false := by decide
theorem test_wf_keyexp_too_large : (Instr.keyexp 16).wf = false := by decide
theorem test_wf_keyexp_fits : (Instr.keyexp 15).wf = true := by decide

/-! ### Decoding: words written out from 30_encoding.md R70 and R73, OP P Q A B -/

theorem test_decode_gmul : decode 0b00000001_0000_0000_01010111_10000011#32 = .ok (.gmul 0x57 0x83) := rfl
theorem test_decode_sbyte : decode 0b00000010_0000_0000_01010011_00000000#32 = .ok (.sbyte 0x53) := rfl
theorem test_decode_subrng : decode 0b00000011_1100_1111_00000000_00000000#32 = .ok (.subrng 12 15) := rfl
theorem test_decode_rotw : decode 0b00000100_0000_0000_00000000_00000000#32 = .ok .rotw := rfl
theorem test_decode_subw : decode 0b00000101_0000_0000_00000000_00000000#32 = .ok .subw := rfl
theorem test_decode_addrc : decode 0b00000110_1001_0000_00000000_00000000#32 = .ok (.addrc 9) := rfl
theorem test_decode_keyexp : decode 0b00000111_1010_0000_00000000_00000000#32 = .ok (.keyexp 10) := rfl
theorem test_decode_keysched : decode 0b00001000_0000_0000_00000000_00000000#32 = .ok .keysched := rfl
theorem test_decode_shrows : decode 0b00001001_0000_0000_00000000_00000000#32 = .ok .shrows := rfl
theorem test_decode_mixcol : decode 0b00001010_0000_0000_00000000_00000000#32 = .ok .mixcol := rfl
theorem test_decode_addrk : decode 0b00001011_0000_0000_00000000_00000000#32 = .ok .addrk := rfl
theorem test_decode_subst : decode 0b00001100_0000_0000_00000000_00000000#32 = .ok .subst := rfl
theorem test_decode_encrypt : decode 0b00001101_0000_0000_00000000_00000000#32 = .ok .encrypt := rfl
theorem test_decode_zero_word : decode 0x00000000 = .error .unassignedOpcode := rfl
theorem test_decode_high_opcode : decode 0xFF000000 = .error .unassignedOpcode := rfl
theorem test_decode_gmul_p_nonzero : decode 0x01100000 = .error .reservedNonzero := rfl
theorem test_decode_keyexp_b_nonzero : decode 0x07A00001 = .error .reservedNonzero := rfl
theorem test_encode_subrng : encode (.subrng 5 9) = 0x03590000 := by decide
theorem test_decodeTableWord : decodeTableWord 32 0x02002000 = some (.sbyte 0x20) := rfl

/-! ### The commands (95, sections 1 and 2) -/

theorem test_gmul_classic : (nextOf (exec (.gmul 0x57 0x83) State.reset)).map State.y = some 0xC1 := by decide
theorem test_gmul_all_ones : (nextOf (exec (.gmul 0xFF 0xFF) State.reset)).map State.y = some 0x13 := by decide
theorem test_sbyte_53 : (nextOf (exec (.sbyte 0x53) State.reset)).map State.y = some 0xED := by decide
theorem test_sbyte_ff : (nextOf (exec (.sbyte 0xFF) State.reset)).map State.y = some 0x16 := by decide
theorem test_subrng_inner : (nextOf (exec (.subrng 5 9) (withRegs countBlock keyK 0))).map State.st =
    some (blockOf 0x00010203 0x046B6FC5 0x30010A0B 0x0C0D0E0F) := by decide +kernel
theorem test_subrng_equal_bounds : (nextOf (exec (.subrng 5 5) (withRegs countBlock keyK 0))).map
    (fun t => (t.st, statusWord t)) = some (countBlock, 0x34) := by decide +kernel
theorem test_rotw : (nextOf (exec .rotw (withRegs countBlock keyK 0x67204675))).map (busPeek 0x03) = some 0x20467567 := by
  decide +kernel
theorem test_subw : (nextOf (exec .subw (withRegs countBlock keyK 0x20467567))).map (busPeek 0x03) = some 0xB75A9D85 := by
  decide +kernel
theorem test_addrc_first : (nextOf (exec (.addrc 0) (withRegs countBlock keyK 0xB75A9D85))).map (busPeek 0x03) =
    some 0xB65A9D85 := by decide +kernel
theorem test_addrc_last : (nextOf (exec (.addrc 9) State.reset)).map (busPeek 0x03) = some 0x36000000 := by decide +kernel
theorem test_keyexp_first : (nextOf (exec (.keyexp 0) (withRegs countBlock keyK 0))).map State.ky =
    some (blockOf 0xE232FCF1 0x91129188 0xB159E4E6 0xD679A293) := by decide +kernel
theorem test_keyexp_last : (nextOf (exec (.keyexp 9) (withRegs countBlock keyK 0))).map State.ky =
    some (blockOf 0xD532FCF1 0xA6129188 0x8659E4E6 0xE179A293) := by decide +kernel
theorem test_keysched_last_entry : (nextOf (exec .keysched (withRegs countBlock keyK 0))).map (fun t => t.ks.get 10) =
    some (blockOf 0x28FDDEF8 0x6DA4244A 0xCCC0A4FE 0x3B316F26) := by decide +kernel
theorem test_keysched_middle_entry : (nextOf (exec .keysched (withRegs countBlock keyK 0))).map (fun t => t.ks.get 5) =
    some (blockOf 0xB1293B33 0x05418592 0xD210D232 0xC6429B69) := by decide +kernel
theorem test_shrows : (nextOf (exec .shrows (withRegs countBlock keyK 0))).map State.st =
    some (blockOf 0x00050A0F 0x04090E03 0x080D0207 0x0C01060B) := by decide +kernel
theorem test_mixcol_fixture : (nextOf (exec .mixcol
    (withRegs (blockOf 0x632FAFA2 0xEB93C720 0x9F92ABCB 0xA0C0302B) keyK 0))).map State.st =
    some (blockOf 0xBA75F47A 0x84A48D32 0xE88D060E 0x1B407D5D) := by decide +kernel
theorem test_mixcol_count : (nextOf (exec .mixcol (withRegs countBlock keyK 0))).map State.st =
    some (blockOf 0x02070005 0x06030401 0x0A0F080D 0x0E0B0C09) := by decide +kernel
theorem test_addrk : (nextOf (exec .addrk (withRegs plainS6 keyK 0))).map State.st =
    some (blockOf 0x001F0E54 0x3C4E0859 0x6E221B0B 0x4774311A) := by decide +kernel
theorem test_subst : (nextOf (exec .subst (withRegs (blockOf 0x001F0E54 0x3C4E0859 0x6E221B0B 0x4774311A) keyK 0))).map
    State.st = some (blockOf 0x63C0AB20 0xEB2F30CB 0x9F93AF2B 0xA092C7A2) := by decide +kernel
theorem test_encrypt_source_vector : (nextOf (exec .encrypt (withRegs plainS6 keyK 0))).map (fun t => (t.st, t.ky)) =
    some (blockOf 0x29C3505F 0x571420F6 0x402299B3 0x1A02D73A, keyK) := by decide +kernel
theorem test_encrypt_fips_c1 : (nextOf (exec .encrypt
    (withRegs (blockOf 0x00112233 0x44556677 0x8899AABB 0xCCDDEEFF) countBlock 0))).map State.st =
    some (blockOf 0x69C4E0D8 0x6A7B0430 0xD8CDB780 0x70B4C55A) := by decide +kernel

/-! ### Issue, STATUS and the bus (95, sections 2.7 and 2.8) -/

theorem test_issue_illegal : statusWord (issue 0x07A00001 State.reset) = 0x16 := by decide +kernel
theorem test_issue_round_range : statusWord (issue 0x06A00000 State.reset) = 0x26 := by decide +kernel
theorem test_issue_range_bounds : statusWord (issue 0x03950000 State.reset) = 0x36 := by decide +kernel
theorem test_issue_accepted : statusWord (issue 0x030F0000 State.reset) = 0x01 := by decide +kernel
theorem test_busy_write_dropped : statusWord (busWrite 0x03 1 (issue 0x0D000000 State.reset)) = 0x45 := by decide +kernel
theorem test_busy_issue_keeps_first_code :
    statusWord (busWrite 0x00 0x06A00000 (busWrite 0x03 1 (issue 0x0D000000 State.reset))) = 0x45 := by decide +kernel
theorem test_second_error_keeps_first_code :
    statusWord (busWrite 0x00 0x03550000 (busWrite 0x00 0x06A00000 State.reset)) = 0x26 := by decide +kernel
theorem test_status_clears : statusWord (busWrite 0x01 0xFFFFFFFF (busWrite 0x00 0x06A00000 State.reset)) = 0x00 := by
  decide +kernel
theorem test_status_clear_keeps_mark :
    (busWrite 0x01 0xFFFFFFFF (busWrite 0x00 0x06A00000 State.reset)).faultMark = true := by decide +kernel
theorem test_reset_keeps_mark : (hostReset (busWrite 0x00 0x06A00000 State.reset)).faultMark = true := by decide +kernel
theorem test_write_st0 : (busWrite 0x04 0x54776F20 State.reset).st = blockOf 0x54776F20 0 0 0 := by decide +kernel
theorem test_write_ks_ignored : busWrite 0x3B 0x12345678 State.reset = State.reset := by decide +kernel
theorem test_read_y : busPeek 0x02 (State.reset.setY 0xED) = 0x000000ED := by decide +kernel
theorem test_busy_read_is_free : (busRead 0x02 (issue 0x02005300 State.reset)).1 = Config.busyRead 0 1 := rfl
theorem test_busy_read_elsewhere : (busRead 0x08 ((State.reset.setKy keyK).withFetchWord 32 0x02005300)).1 = 0x54686174 := by
  decide +kernel

/-! ### Steps -/

theorem test_step_runs_first_command :
    (nextOf (step (State.reset.withFetchWord 32 0x01005783))).map (fun t => (t.y, statusWord t)) = some (0xC1, 0x02) := by
  decide +kernel
theorem test_step_raises_in_domain_check :
    (nextOf (step (State.reset.withFetchWord 32 0x03000000))).map statusWord = some 0x36 := by decide +kernel
theorem test_step_idle : nextOf (step State.reset) = some State.reset := by decide +kernel
theorem test_step_host_write :
    (nextOf (step (State.reset.withProgram [.write 0x04 0x54776F20, .wait]))).map (fun t => (t.st.c0, t.host)) =
      some (unpack 0x54776F20, [.wait]) := by decide +kernel
theorem test_step_wait_when_idle : (nextOf (step (State.reset.withProgram [.wait]))).map (fun t => (t.host, t.reads)) =
    some ([], [⟨0x01, 0x00000000, some ['s']⟩]) := by decide +kernel
theorem test_wait_polls_again : (hostPoll (State.reset.withFetchWord 32 0x04000000)).host = [.wait] := by decide +kernel

/-! ### The assembler (30_encoding.md R82, R83; the lines are those of 95, section 3) -/

theorem test_assemble_do_keyexp :
    assembleLine ['D', 'O', ' ', 'K', 'E', 'Y', 'E', 'X', 'P', ' ', '0', 'x', '9', ' ', ';', 'x'] =
      .ok [.write 0x00 0x07900000, .wait] := rfl
theorem test_assemble_wr : assembleLine ['W', 'R', ' ', 'W', ',', ' ', '0', 'x', 'F', '1'] = .ok [.write 0x03 0xF1] := rfl
theorem test_assemble_rd_named : assembleLine ['R', 'D', ' ', 'K', 'S', '1', '0', '_', '3', ' ', '-', '>', ' ', 's'] =
    .ok [.read 0x3B (some ['s'])] := rfl
/-- P1's first line and its first bus write. -/
theorem test_assemble_ld16 :
    (assembleLine ['L', 'D', '1', '6', ' ', 'K', 'Y', ',', ' ', '5', '4', ' ', '6', '8', ' ', '6', '1', ' ', '7', '4', ' ',
      '7', '3', ' ', '2', '0', ' ', '6', 'D', ' ', '7', '9', ' ', '2', '0', ' ', '4', 'B', ' ', '7', '5', ' ', '6', 'E', ' ',
      '6', '7', ' ', '2', '0', ' ', '4', '6', ' ', '7', '5']).map (fun l => (l.head?, l.length)) =
      .ok (some (.write 0x08 0x54686174), 4) := rfl
/-- P1's last read of the key schedule: the four words KS10_0 to KS10_3, unpacked. -/
theorem test_rd16_ks10 : rd16Named (.ks 10) ['k'] [⟨0x38, 0x28FDDEF8, some ['k']⟩, ⟨0x39, 0x6DA4244A, some ['k']⟩,
    ⟨0x3A, 0xCCC0A4FE, some ['k']⟩, ⟨0x3B, 0x3B316F26, some ['k']⟩, ⟨0x01, 0x02, some ['s']⟩] =
    some (blockOf 0x28FDDEF8 0x6DA4244A 0xCCC0A4FE 0x3B316F26) := by decide +kernel
theorem test_assemble_oversized :
    assembleLine ['C', 'M', 'D', ' ', 'A', 'D', 'D', 'R', 'C', ' ', '1', '6'] = .error .operandTooLarge := rfl

/-! ### Witnesses: the hypotheses of the statements can be met -/

theorem witness_DecodeOfEncodeIsTheCommand : (Instr.keyexp 15).wf = true := by decide
theorem witness_EncodeOfDecodeIsTheWord : ∃ i, decode 0x030F0000 = .ok i := ⟨.subrng 0 15, rfl⟩
theorem witness_DecodedOperandsAreTheFields : ∃ i, decode 0x0100FFFF = .ok i := ⟨.gmul 0xFF 0xFF, rfl⟩
theorem witness_IllegalWordsAreExactlyThose : illegal 0x0D000001 ∧ State.reset.busy = false := by
  unfold illegal opNat pNat qNat aNat bNat; decide
theorem witness_OutOfDomainOperandsRaiseAtIssue_round : (15 : Nat) < 16 ∧ State.reset.busy = false ∧ 10 ≤ 15 := by decide
theorem witness_OutOfDomainOperandsRaiseAtIssue_range : (5 : Nat) < 16 ∧ State.reset.busy = false ∧ 5 ≤ 5 := by decide
theorem witness_WorkedWordsDecodeAsListed : (Instr.encrypt, (0x0D000000 : Word)) ∈ workedWords := by decide
theorem witness_StepRunsThePendingCommand : ∃ s v i, s.pend = some v ∧ decode v = .ok i ∧ coreMoves s = true :=
  ⟨State.reset.withFetchWord 32 0x0D000000, 0x0D000000, .encrypt, rfl, rfl, rfl⟩
theorem witness_StepRunsTheNextHostOperation_idle :
    ∃ (s : State) (op : HostOp) (rest : List HostOp), s.host = op :: rest ∧ s.pend = none :=
      ⟨State.reset.withProgram [.wait], .wait, [], rfl, rfl⟩
theorem witness_StepRunsTheNextHostOperation_pending : ∃ (s : State) (op : HostOp) (rest : List HostOp) (n : Nat),
    s.host = op :: rest ∧ s.coreWait = n + 1 ∧ s.pend = some 0x04000000 :=
  ⟨{ (latchDue 0x04000000 State.reset) with host := [.wait], coreWait := 1 }, .wait, [], 0, rfl, rfl, rfl⟩
theorem witness_StepRunsTheNextHostOperation_ended : State.reset.host = [] ∧ State.reset.pend = none := ⟨rfl, rfl⟩
theorem witness_EveryStepKeepsTheStatusInvariant : (State.reset.withFetchWord 32 0x0D000000).Inv ∧
    ∃ t, step (State.reset.withFetchWord 32 0x0D000000) = .next t := ⟨by decide +kernel, _, rfl⟩
theorem witness_NoStepStopsTheMachine : (State.reset.withProgram [.write 0x00 0x0D000000, .wait, .assertReset]).Inv ∧
    ∀ op ∈ (State.reset.withProgram [.write 0x00 0x0D000000, .wait, .assertReset]).host, op.atPort = true := by
  decide +kernel
theorem witness_EveryHostProgramEnds : (State.reset.withProgram [.write 0x00 0x0D000000, .wait]).Inv ∧
    (∀ op ∈ (State.reset.withProgram [.write 0x00 0x0D000000, .wait]).host, op.atPort = true) := by decide +kernel
theorem witness_FaultMarkIsSticky : (raiseError .busyWrite State.reset).faultMark = true ∧
    ∃ t, step (raiseError .busyWrite State.reset) = .next t := ⟨rfl, _, rfl⟩
theorem witness_OnlyAClearOrResetClearsErr_write :
    ∃ s t : State, s.err = true ∧ step s = .next t ∧ t.err = false ∧ s.host = [.write 0x01 0x00000004] :=
  ⟨(raiseError .busyWrite State.reset).withProgram [.write 0x01 0x00000004], _, rfl, rfl, rfl, rfl⟩
theorem witness_OnlyAClearOrResetClearsErr_reset :
    ∃ s t : State, s.err = true ∧ step s = .next t ∧ t.errcode ≠ s.errcode ∧ s.host = [.assertReset] :=
  ⟨(raiseError .busyWrite State.reset).withProgram [.assertReset], _, rfl, rfl, by decide, rfl⟩
theorem witness_OnlyAClearOrResetClearsErr_bit : BitVec.getLsbD (0x00000004 : Word) 2 = true := by decide
theorem witness_IssuedCommandTakesEffectOnce :
    State.reset.busy = false ∧ decode 0x07900000 = .ok (.keyexp 9) ∧ domainError (.keyexp 9) = none := ⟨rfl, rfl, rfl⟩
theorem witness_DutifulHostSetsNoFaultMark :
    let s := State.reset.withProgram [.write 0x00 0x030F0000]
    s.Inv ∧ s.faultMark = false ∧ (∀ op ∈ s.host.head?, op.dutiful s = true) ∧ ∃ t, step s = .next t :=
  ⟨by decide +kernel, rfl, by intro op h; cases h; rfl, _, rfl⟩
theorem witness_StatusNotBusyMeansComplete :
    State.reset.Inv ∧ (busRead 0x01 State.reset).1.getLsbD 0 = false := by decide +kernel
theorem witness_InstancesDoNotInteract : ∃ (cores out : List State) (s : State),
    cores[1]? = some s ∧ systemStep cores 1 = .next out ∧ cores.length = 2 :=
  ⟨[State.reset, State.reset], _, State.reset, rfl, rfl, rfl⟩
theorem witness_InstancesDoNotInteract_reset : 0 < Config.nCores ∧ ∃ t, step State.reset = .next t :=
  ⟨Nat.succ_pos _, _, rfl⟩
theorem witness_BusReadFollowsTheMap_window : inBusyWindow (State.reset.withFetchWord 32 0x0D000000) 0x3B :=
  ⟨rfl, 0x0D000000, .encrypt, rfl, rfl, by unfold writes; decide⟩
theorem witness_BusReadFollowsTheMap_outside : ¬inBusyWindow State.reset 0x3F := fun h => Bool.noConfusion h.1
theorem witness_BusWriteFollowsTheMap_busy : (State.reset.withFetchWord 32 0x0D000000).busy = true ∧
    (3 ≤ BitVec.toNat (0x03 : BusAddr) ∧ BitVec.toNat (0x03 : BusAddr) ≤ 0x0B) ∧
    (3 ≤ BitVec.toNat (0x0B : BusAddr) ∧ BitVec.toNat (0x0B : BusAddr) ≤ 0x0B) := by decide +kernel
theorem witness_BusWriteFollowsTheMap_port : BitVec.toNat (0x00 : BusAddr) = 0x00 ∧ BitVec.toNat (0x01 : BusAddr) = 0x01 ∧
    BitVec.toNat (0x02 : BusAddr) = 0x02 ∧ BitVec.toNat (0x03 : BusAddr) = 0x03 := by decide
theorem witness_BusWriteFollowsTheMap_st : State.reset.busy = false ∧
    (4 ≤ BitVec.toNat (0x04 : BusAddr) ∧ BitVec.toNat (0x07 : BusAddr) ≤ 7) := by decide
theorem witness_BusWriteFollowsTheMap_ky : State.reset.busy = false ∧
    (8 ≤ BitVec.toNat (0x08 : BusAddr) ∧ BitVec.toNat (0x0B : BusAddr) ≤ 0x0B) := by decide
theorem witness_BusWriteFollowsTheMap_ignored : 0x0C ≤ BitVec.toNat (0x0C : BusAddr) ∧ 0x0C ≤ BitVec.toNat (0x3F : BusAddr) := by
  decide
theorem witness_WrittenWordReadsBackAlone : State.reset.busy = false ∧
    (3 ≤ BitVec.toNat (0x0B : BusAddr) ∧ BitVec.toNat (0x0B : BusAddr) ≤ 0x0B) ∧ (0x0A : BusAddr) ≠ 0x0B := by decide
theorem witness_SideEffectsOfBusAccesses : State.reset.busy = false ∧
    (3 ≤ BitVec.toNat (0x03 : BusAddr) ∧ BitVec.toNat (0x03 : BusAddr) ≤ 0x0B) ∧ BitVec.toNat (0x02 : BusAddr) = 0x02 := by
  decide
theorem witness_StatusReadsItsFields : 8 ≤ 8 ∧ 8 ≤ 31 := by decide
theorem witness_FirstErrorCodeIsKept : State.reset.err = false ∧ (0x00 : BusAddr) ≠ 0x01 := by decide
theorem witness_IssueChecksInOrder_busy : (State.reset.withFetchWord 32 0x0D000000).busy = true := rfl
theorem witness_IssueChecksInOrder_illegal : State.reset.busy = false ∧ illegal 0x0E000000 := by
  unfold illegal opNat pNat qNat aNat bNat; decide
theorem witness_IssueChecksInOrder_round : State.reset.busy = false ∧ ¬illegal 0x06A00000 ∧
    (opNat 0x06A00000 = 6 ∨ opNat 0x06A00000 = 7) ∧ 9 < pNat 0x06A00000 := by
  unfold illegal opNat pNat qNat aNat bNat; decide
theorem witness_IssueChecksInOrder_range : State.reset.busy = false ∧ ¬illegal 0x03550000 ∧ opNat 0x03550000 = 3 ∧
    ¬pNat 0x03550000 < qNat 0x03550000 := by
  unfold illegal opNat pNat qNat aNat bNat; decide
theorem witness_IssueChecksInOrder_accepted : State.reset.busy = false ∧ ¬illegal 0x07900000 ∧
    ((opNat 0x07900000 = 6 ∨ opNat 0x07900000 = 7) → pNat 0x07900000 ≤ 9) ∧
    (opNat 0x07900000 = 3 → pNat 0x07900000 < qNat 0x07900000) := by
  unfold illegal opNat pNat qNat aNat bNat; decide
theorem witness_BusyWritesAreDropped : (State.reset.withFetchWord 32 0x04000000).busy = true ∧
    (3 ≤ BitVec.toNat (0x07 : BusAddr) ∧ BitVec.toNat (0x07 : BusAddr) ≤ 0x0B) ∧ BitVec.toNat (0x01 : BusAddr) = 0x01 ∧
    0x0C ≤ BitVec.toNat (0x10 : BusAddr) := by decide +kernel
theorem witness_PlatformAccessReachesItsWord : (2 : Nat) ≠ 4 ∧ 5 % 4 ≠ 0 := by decide
theorem witness_SbyteWritesTheSubstitutedByte : (0x53 : Byte) ≠ 0 ∧ gmul 0x53 0xCA = 1 := by decide
theorem witness_SubrngSubstitutesItsRange : (14 : Nat) < 15 ∧ (15 : Nat) < 16 := by decide
theorem witness_OutOfDomainCommandsOnlyRaise : ¬((5 : Nat) < 5 ∧ (5 : Nat) < 16) ∧ 9 < 10 := by decide
theorem witness_AddrcXorsTheRoundConstant : (9 : Nat) ≤ 9 ∧ (3 : Fin 4) ≠ 0 := by decide
theorem witness_KeyexpMakesTheNextRoundKey : (0 : Nat) ≤ 9 := by decide
theorem witness_EncryptEqualsItsCommandSequence : (withRegs plainS6 keyK 0).busy = false := rfl
theorem witness_EncryptDependsOnlyOnKeyAndBlock : ∃ s u : State, s.st = u.st ∧ s.ky = u.ky ∧ s.ks ≠ u.ks ∧ s.w ≠ u.w :=
  ⟨withRegs plainS6 keyK 0, (withRegs plainS6 keyK 1).setKs (keySchedule keyK), rfl, rfl, by decide +kernel, by decide⟩
theorem witness_OnlyTheirCommandsWriteTheRegisters : ∃ t, exec (.sbyte 0x53) State.reset = .next t ∧ t.y ≠ State.reset.y :=
  ⟨_, rfl, by decide⟩
theorem witness_OnlyTheirCommandsWriteTheRegisters_others :
    (nextOf (exec .subw State.reset)).map State.w ≠ some State.reset.w ∧
    (nextOf (exec (.keyexp 0) State.reset)).map State.ky ≠ some State.reset.ky ∧
    (nextOf (exec .keysched State.reset)).map State.ks ≠ some State.reset.ks ∧
    (nextOf (exec .subst State.reset)).map State.st ≠ some State.reset.st := by decide +kernel
theorem witness_NoCommandReadsKsOrStatus : ∃ s u : State,
    s.st = u.st ∧ s.ky = u.ky ∧ s.w = u.w ∧ s.y = u.y ∧ s.ks ≠ u.ks ∧ s.busy ≠ u.busy :=
  ⟨State.reset, (State.reset.withFetchWord 32 0x04000000).setKs (keySchedule keyK), rfl, rfl, rfl, rfl, by decide +kernel,
    by decide⟩
theorem witness_CommandsWriteOnlyTheirWriteSet : domainError (.subrng 0 15) = none ∧ ¬writes (.subrng 0 15) 0x08 :=
  ⟨rfl, by unfold writes; decide⟩
theorem witness_AssemblerNeverTruncates :
    (Instr.subrng 12 15).wf = true ∧ expandLine (.cmd ['S', 'U', 'B', 'R', 'N', 'G'] [12, 15]) = .ok [.write 0x00 0x03CF0000] ∧
      16 ≤ 16 ∧ (256 ≤ 0 ∨ 256 ≤ 256) ∧ 2 ^ 32 ≤ 4294967296 ∧ ∃ b ∈ [255, 256], 256 ≤ b :=
  ⟨rfl, rfl, by decide, by decide, by decide, by decide⟩
theorem witness_Rd16GetsTheSixteenBytes_idle (r : RegName) : ¬inBusyWindow State.reset (regAddr r) := fun h => Bool.noConfusion h.1
theorem witness_Rd16GetsTheSixteenBytes_busy : let s := State.reset.withFetchWord 32 0x08000000
    s.busy = true ∧ ∀ j, ¬inBusyWindow s (regAddr (.ky j)) := by
  refine ⟨rfl, fun j h => ?_⟩
  obtain ⟨-, v, i, hv, hi, hw⟩ := h
  cases hv
  cases hi
  revert j
  unfold writes
  decide
theorem witness_PseudoInstructionsExpand : asmCommand ['K', 'E', 'Y', 'E', 'X', 'P'] [0] = .ok (.keyexp 0) := rfl

end Sys2Proof.Tests
end

/-! ### The effect of a command

What a command changes is a value computed from ST, KY and W alone; `exec` applies that value to the state. What a
command depends on (R34) and what it commutes with are read off this one equation. -/

namespace Sys2Proof.Proofs

open Sys2Proof Sys2Proof.Machine Sys2Proof.Laws

/-- What a command does to the state: it records an error, or it writes data registers. -/
inductive Effect where
  | raise (code : ErrCode)
  | writeY (v : Byte)
  | writeW (v : Quad)
  | writeSt (v : Block)
  | writeKy (v : Block)
  | writeKs (v : KeyTable)
  | writeStKs (v : Block) (k : KeyTable)

/-- The state after an effect. -/
def Effect.apply : Effect → State → State
  | .raise code, s => raiseError code s
  | .writeY v, s => s.setY v
  | .writeW v, s => s.setW v
  | .writeSt v, s => s.setSt v
  | .writeKy v, s => s.setKy v
  | .writeKs k, s => s.setKs k
  | .writeStKs v k, s => (s.setSt v).setKs k

/-- The effect of a command, from the only registers that a command reads: ST, KY and W. -/
def effectOf (i : Instr) (st ky : Block) (w : Quad) : Effect :=
  match i with
  | .gmul a b => .writeY (gmul a b)
  | .sbyte a => .writeY (sbox a)
  | .subrng p q => if rangeLegal p q then .writeSt (subRange p q st) else .raise .rangeBounds
  | .rotw => .writeW (rotWord w)
  | .subw => .writeW (subWord w)
  | .addrc p => (roundIndex p).elim (.raise .roundRange) fun r => .writeW (addRcon w r)
  | .keyexp p => (roundIndex p).elim (.raise .roundRange) fun r => .writeKy (expandKey r ky)
  | .keysched => .writeKs (keySchedule ky)
  | .shrows => .writeSt (shiftRows st)
  | .mixcol => .writeSt (mixColumns st)
  | .addrk => .writeSt (addRoundKey st ky)
  | .subst => .writeSt (subState st)
  | .encrypt => .writeStKs (encryptBlock st ky).s (encryptBlock st ky).ks

/-- `exec` is the command's effect, applied: it always completes. -/
theorem exec_eq_effect (i : Instr) (s : State) : exec i s = .next ((effectOf i s.st s.ky s.w).apply s) := by
  cases i with
  | subrng p q =>
    cases hr : rangeLegal p q with
    | true => simp [exec_subrng_legal hr, effectOf, hr, Effect.apply]
    | false => simp [exec_subrng_illegal hr, effectOf, hr, Effect.apply]
  | addrc p =>
    cases hr : roundIndex p with
    | some r => simp [exec_addrc_round hr, effectOf, hr, Effect.apply]
    | none => simp [exec_addrc_noRound hr, effectOf, hr, Effect.apply]
  | keyexp p =>
    cases hr : roundIndex p with
    | some r => simp [exec_keyexp_round hr, effectOf, hr, Effect.apply]
    | none => simp [exec_keyexp_noRound hr, effectOf, hr, Effect.apply]
  | _ => rfl

/-- An effect and the acceptance of a command write different fields: acceptance and then completion around an effect
leave the effect itself, completed, with the free value of the acceptance counted. -/
theorem complete_effect_accept (e : Effect) (v : Word) (s : State) :
    completeCommand (e.apply (acceptCommand v s)) =
      { e.apply s with pend := none, busy := false, done := true, coreWait := 0, draws := s.draws + 1 } := by
  cases e <;> rfl

/-- One effect, applied to two states that agree in the data registers other than KS, leaves them in agreement; it
leaves KS alone in both or writes the same table into both. -/
theorem effect_apply_agree (e : Effect) {s u : State} (hst : s.st = u.st) (hky : s.ky = u.ky) (hw : s.w = u.w)
    (hy : s.y = u.y) :
    (e.apply s).st = (e.apply u).st ∧ (e.apply s).ky = (e.apply u).ky ∧ (e.apply s).w = (e.apply u).w ∧
      (e.apply s).y = (e.apply u).y ∧
      ((e.apply s).ks = s.ks ∧ (e.apply u).ks = u.ks ∨ (e.apply s).ks = (e.apply u).ks) := by
  cases e <;> simp [Effect.apply, hst, hky, hw, hy]

end Sys2Proof.Proofs

/-! ### The invariant of STATUS, PEND and the fault mark

`State.Inv` speaks of six fields. The updates that touch none of them keep it by definition; each of the others has its
own lemma, and the bus operations, the Host's and the commands are put together from these by the case lemmas of
Sys2Proof/Laws. -/

namespace Sys2Proof.Proofs

open Sys2Proof Sys2Proof.Machine Sys2Proof.Laws

section Preservation

variable {s t : State}

/-- The words that Issue accepts (R183). -/
theorem acceptedWord_iff (v : Word) : acceptedWord v = true ↔ ∃ i, decode v = .ok i ∧ domainError i = none := by
  cases hd : decode v with
  | error e => simp [acceptedWord, hd]
  | ok i => simp [acceptedWord, hd]

/-- A domain error is an error. -/
theorem domainError_ne_noError {i : Instr} {code : ErrCode} (h : domainError i = some code) : code ≠ .noError := by
  rintro rfl
  rcases domainError_cases i with e | ⟨e, -⟩ | ⟨e, -⟩ <;> simp [e] at h

theorem inv_raiseError {code : ErrCode} (hc : code ≠ .noError) (hs : s.Inv) : (raiseError code s).Inv := by
  obtain ⟨hbusy, hexcl, hcode, hpend, -⟩ := hs
  refine ⟨hbusy, hexcl, ?_, hpend, fun _ => rfl⟩
  cases he : s.err with
  | false => simp [he, hc]
  | true => simp [he, ← hcode]

/-- DONE may be set while nothing is pending (R183, a rejected command). -/
theorem inv_setDone (hb : s.busy = false) (hs : s.Inv) : s.setDone.Inv := by
  obtain ⟨hbusy, -, hcode, hpend, hmark⟩ := hs
  exact ⟨hbusy, by simp [hb], hcode, hpend, hmark⟩

theorem inv_rejectCommand {code : ErrCode} (hc : code ≠ .noError) (hb : s.busy = false) (hs : s.Inv) :
    (rejectCommand code s).Inv :=
  inv_raiseError hc (inv_setDone hb hs)

theorem inv_acceptCommand {v : Word} (hv : acceptedWord v = true) (hs : s.Inv) : (acceptCommand v s).Inv := by
  obtain ⟨-, -, hcode, -, hmark⟩ := hs
  exact ⟨rfl, rfl, hcode, by simpa using hv, hmark⟩

theorem inv_completeCommand (hs : s.Inv) : (completeCommand s).Inv := by
  obtain ⟨-, -, hcode, -, hmark⟩ := hs
  exact ⟨rfl, rfl, hcode, rfl, hmark⟩

theorem inv_clearDone (hs : s.Inv) : s.clearDone.Inv := by
  obtain ⟨hbusy, -, hcode, hpend, hmark⟩ := hs
  exact ⟨hbusy, by simp, hcode, hpend, hmark⟩

theorem inv_clearError (hs : s.Inv) : s.clearError.Inv := by
  obtain ⟨hbusy, hexcl, -, hpend, -⟩ := hs
  exact ⟨hbusy, hexcl, by simp, hpend, by simp⟩

/-- Reset makes the invariant true, whatever held before. -/
theorem inv_hostReset (s : State) : (hostReset s).Inv :=
  ⟨rfl, rfl, by simp, rfl, by simp⟩

theorem inv_statusWrite (v : Word) (hs : s.Inv) : (statusWrite v s).Inv := by
  rcases statusWrite_cases v s with e | e | ⟨-, e | e⟩ <;> rw [e]
  · exact hs
  · exact inv_clearDone hs
  · exact inv_clearError hs
  · exact inv_clearError (inv_clearDone hs)

theorem inv_issue (v : Word) (hs : s.Inv) : (issue v s).Inv := by
  rcases issue_cases v s with ⟨-, e⟩ | ⟨hb, -, e⟩ | ⟨hb, i, code, -, hc, e⟩ | ⟨-, i, hd, hn, e⟩ <;> rw [e]
  · exact inv_raiseError (by decide) hs
  · exact inv_rejectCommand (by decide) hb hs
  · exact inv_rejectCommand (domainError_ne_noError hc) hb hs
  · exact inv_acceptCommand ((acceptedWord_iff v).2 ⟨i, hd, hn⟩) hs

theorem inv_busWrite (a : BusAddr) (v : Word) (hs : s.Inv) : (busWrite a v s).Inv := by
  rcases busWrite_cases a v s with ⟨-, e⟩ | ⟨-, e⟩ | e | ⟨-, -, e⟩ | ⟨-, e | ⟨x, e⟩ | ⟨x, e⟩⟩ <;> rw [e]
  · exact inv_issue v hs
  · exact inv_statusWrite v hs
  · exact hs
  · exact inv_raiseError (by decide) hs
  all_goals exact hs

theorem inv_hostRead (a : BusAddr) (name : Option (List Char)) (hs : s.Inv) : (hostRead a name s).Inv := by
  unfold hostRead
  rcases busRead_cases a s with e | e <;> rw [e] <;> exact hs

theorem inv_hostPoll (hs : s.Inv) : (hostPoll s).Inv := by
  rw [hostPoll_eq]
  split <;> exact hs

theorem inv_hostPerform {op : HostOp} (hs : s.Inv) (ht : hostPerform op s = .next t) : t.Inv := by
  rcases hostPerform_cases ht with ⟨a, v, -, rfl⟩ | ⟨a, name, rfl⟩ | ⟨-, rfl⟩ | ⟨-, rfl⟩
  · exact inv_busWrite a v hs
  · exact inv_hostRead a name hs
  · exact inv_hostPoll hs
  · exact inv_hostReset s

theorem inv_of_execResult {i : Instr} (hs : s.Inv) (hr : ExecResult i s t) : t.Inv := by
  cases hr with
  | raised code hc => exact inv_raiseError (domainError_ne_noError hc) hs
  | _ => exact hs

/-- The induction step of every claim about runs that rests on the invariant. -/
theorem inv_step (hs : s.Inv) (ht : step s = .next t) : t.Inv := by
  rcases step_cases ht with ⟨-, v, i, u, -, -, -, hr, rfl⟩ | ⟨-, op, rest, -, hp⟩ | ⟨-, -, -, rfl⟩
  · exact inv_completeCommand (inv_of_execResult hs hr)
  · exact inv_hostPerform (s := s.tickWait.setHost rest) hs hp
  · exact hs

end Preservation

/-- Settles O10, by the one-step form of the invariant. -/
theorem everyStepKeepsTheStatusInvariant : Obligations.EveryStepKeepsTheStatusInvariant :=
  fun _ _ => inv_step

/-- Settles O11, by computing the reset state's six fields. -/
theorem resetMeetsTheStatusInvariant : Obligations.ResetMeetsTheStatusInvariant := by
  unfold Obligations.ResetMeetsTheStatusInvariant
  decide

end Sys2Proof.Proofs

/-! ### Progress

What each operation does to the Host's remaining program, and progress of the Core's and the Host's steps. -/

namespace Sys2Proof.Proofs

open Sys2Proof Sys2Proof.Machine Sys2Proof.Laws

section Progress

variable {s t : State}

@[simp] theorem statusWrite_host (v : Word) (s : State) : (statusWrite v s).host = s.host := by
  rcases statusWrite_cases v s with e | e | ⟨-, e | e⟩ <;> simp [e]

@[simp] theorem issue_host (v : Word) (s : State) : (issue v s).host = s.host := by
  rcases issue_cases v s with ⟨-, e⟩ | ⟨-, -, e⟩ | ⟨-, i, code, -, -, e⟩ | ⟨-, i, -, -, e⟩ <;> simp [e]

@[simp] theorem busWrite_host (a : BusAddr) (v : Word) (s : State) : (busWrite a v s).host = s.host := by
  rcases busWrite_cases a v s with ⟨-, e⟩ | ⟨-, e⟩ | e | ⟨-, -, e⟩ | ⟨-, e | ⟨x, e⟩ | ⟨x, e⟩⟩ <;> simp [e]

@[simp] theorem hostRead_host (a : BusAddr) (name : Option (List Char)) (s : State) :
    (hostRead a name s).host = s.host := by
  rcases busRead_cases a s with e | e <;> simp [hostRead, e]

@[simp] theorem hostPoll_host (s : State) : (hostPoll s).host = if s.busy then .wait :: s.host else s.host := by
  rw [hostPoll_eq]
  split <;> rfl

theorem execResult_host {i : Instr} (hr : ExecResult i s t) : t.host = s.host := by cases hr <;> rfl

/-- An operation at the port is never refused, and leaves the Host's program as it is but for a WAIT that goes round
again. -/
theorem hostPerform_atPort {op : HostOp} (hop : op.atPort = true) (s : State) :
    ∃ t, hostPerform op s = .next t ∧ (t.host = s.host ∨ t.host = .wait :: s.host) := by
  cases op with
  | write a v => exact ⟨_, rfl, .inl (busWrite_host a v s)⟩
  | read a name => exact ⟨_, rfl, .inl (hostRead_host a name s)⟩
  | wait =>
    refine ⟨_, rfl, ?_⟩
    rw [hostPoll_host]
    split
    · exact .inr rfl
    · exact .inl rfl
  | assertReset => exact ⟨_, rfl, .inl rfl⟩
  | platformRead b n => simp [HostOp.atPort] at hop
  | platformWrite b n v => simp [HostOp.atPort] at hop

/-- A Core step that is due completes: the invariant says that what is pending decodes (R31, log 5). -/
theorem step_of_coreMoves (hs : s.Inv) (hm : coreMoves s = true) : ∃ t, step s = .next t ∧ t.host = s.host := by
  obtain ⟨-, -, -, hpend, -⟩ := hs
  cases hp : s.pend with
  | none => simp [coreMoves, hp] at hm
  | some v =>
    obtain ⟨i, hd, -⟩ := (acceptedWord_iff v).1 (by simpa [hp] using hpend)
    obtain ⟨u, hu, hr⟩ := exec_cases i s
    exact ⟨completeCommand u, by simp [step, hm, coreStep, hp, hd, hu, completing],
      (completeCommand_host u).trans (execResult_host hr)⟩

/-- A Host step at the port answers a next state (R66, R67). -/
theorem step_of_hostMoves (hm : coreMoves s = false) (hport : ∀ op ∈ s.host, op.atPort = true) :
    ∃ t, step s = .next t ∧ ∀ op ∈ t.host, op.atPort = true := by
  have hstep : step s = hostStep s := by simp [step, hm]
  rw [hstep]
  cases hh : s.host with
  | nil => exact ⟨s, by simp [hostStep, hh], by simp [hh]⟩
  | cons op rest =>
    rw [hh, List.forall_mem_cons] at hport
    obtain ⟨hop, hrest⟩ := hport
    obtain ⟨t, ht, hhost⟩ := hostPerform_atPort hop (s.tickWait.setHost rest)
    refine ⟨t, by simpa [hostStep, hh] using ht, ?_⟩
    rcases hhost with e | e <;> rw [e, setHost_host]
    · exact hrest
    · exact List.forall_mem_cons.2 ⟨rfl, hrest⟩

end Progress

/-- Settles O12, by which agent moves. -/
theorem noStepStopsTheMachine : Obligations.NoStepStopsTheMachine := by
  intro s hs hport
  cases hm : coreMoves s with
  | true =>
    obtain ⟨t, ht, hhost⟩ := step_of_coreMoves hs hm
    exact ⟨t, ht, hhost ▸ hport⟩
  | false => exact step_of_hostMoves hm hport

end Sys2Proof.Proofs

/-! ### What a command takes effect on, writes and reads

The Core's step of a pending command, and the obligations on a command's effect. -/

namespace Sys2Proof.Proofs

open Sys2Proof Sys2Proof.Machine Sys2Proof.Laws Sys2Proof.Spec

/-- The Core's step of a pending command that decodes (R31). -/
theorem coreStep_of_pend {s : State} {v : Word} {i : Instr} (hp : s.pend = some v) (hd : decode v = .ok i) :
    coreStep s = completing (exec i s) := by simp [coreStep, hp, hd]

/-- Issue accepts a command in its domain while BUSY = 0 (R183). -/
theorem issue_accepted {s : State} {v : Word} {i : Instr} (hb : s.busy = false) (hd : decode v = .ok i)
    (hn : domainError i = none) : issue v s = acceptCommand v s := by simp [issue, hb, hd, hn]

/-- Settles O8: the step is the Core's, and completion is the three assignments of R31. -/
theorem stepRunsThePendingCommand : Obligations.StepRunsThePendingCommand := by
  intro s v i hp hd hm
  have hstep : step s = coreStep s := by simp [step, hm]
  rw [hstep, coreStep_of_pend hp hd]
  cases exec i s <;> rfl

/-- Settles O16: an effect reads none of the fields that acceptance writes. -/
theorem issuedCommandTakesEffectOnce : Obligations.IssuedCommandTakesEffectOnce := by
  intro s v i hb hd hn
  refine ⟨_, exec_eq_effect i s, ?_⟩
  rw [issue_accepted hb hd hn, coreStep_of_pend (acceptCommand_pend s v) hd, exec_eq_effect]
  simp only [completing, acceptCommand_st, acceptCommand_ky, acceptCommand_w, complete_effect_accept]

/-- Settles O52, by the cases of what a command can write. -/
theorem onlyTheirCommandsWriteTheRegisters : Obligations.OnlyTheirCommandsWriteTheRegisters := by
  intro i s t ht
  obtain ⟨u, hu, hr⟩ := exec_cases i s
  obtain rfl : u = t := by simpa [hu] using ht
  cases hr with
  | raised code hc => simp
  | wroteY hn v hi => simpa using fun _ => hi
  | wroteW hn v hi => simpa using fun _ => hi
  | wroteSt hn v hi =>
    refine ⟨by simp, by simp, by simp, by simp, fun _ => ?_⟩
    rcases hi with hi | hi | hi | hi | hi <;> simp [hi]
  | wroteKy hn v hi => simpa using fun _ => hi
  | wroteKs hn v hi => simp [hi]
  | wroteStKs hn v k hi => simp [hi]

/-- Settles O53: the effects of one command on the two states are the same effect. -/
theorem noCommandReadsKsOrStatus : Obligations.NoCommandReadsKsOrStatus := by
  intro i s u hst hky hw hy
  have hu : exec i u = .next ((effectOf i s.st s.ky s.w).apply u) := by rw [exec_eq_effect, hst, hky, hw]
  exact ⟨_, _, exec_eq_effect i s, hu, effect_apply_agree _ hst hky hw hy⟩

end Sys2Proof.Proofs

/-! ### STATUS as a bus word, and reset

The bits of the STATUS word, and what the reset registers read as. -/

namespace Sys2Proof.Proofs

open Sys2Proof Sys2Proof.Machine Sys2Proof.Laws Sys2Proof.Spec

theorem bitWord_getLsbD (b : Bool) (k : Nat) : (bitWord b).getLsbD k = (b && decide (k = 0)) := by
  cases b <;> simp [bitWord, BitVec.getLsbD_one]

/-- STATUS bit by bit: each field at its place in the layout of R28. -/
theorem statusWord_getLsbD (s : State) (k : Nat) :
    (statusWord s).getLsbD k = if k = 0 then s.busy else if k = 1 then s.done else if k = 2 then s.err
      else if k = 3 then false else s.errcode.bits.getLsbD (k - 4) := by
  match k with
  | 0 | 1 | 2 | 3 => simp [statusWord, bitWord_getLsbD, -BitVec.getLsbD_eq_getElem]
  | n + 4 =>
    by_cases hn : n < 4
    · simp [statusWord, bitWord_getLsbD, show n < 32 ∧ n + 4 < 32 by omega, -BitVec.getLsbD_eq_getElem]
    · simp [statusWord, bitWord_getLsbD, BitVec.getLsbD_of_ge s.errcode.bits n (by omega)]

theorem errCode_bits_eq (c : ErrCode) : c.bits = BitVec.ofNat 4 (codeOf c) := by cases c <;> rfl

theorem statusWord_errcode (s : State) : (statusWord s).extractLsb' 4 4 = s.errcode.bits := by
  apply BitVec.eq_of_getLsbD_eq
  intro k hk
  rw [BitVec.getLsbD_extractLsb', statusWord_getLsbD]
  simp [hk, show 4 + k ≠ 1 ∧ 4 + k ≠ 2 ∧ 4 + k ≠ 3 by omega]

theorem busWrite_status (v : Word) (s : State) : busWrite 0x01 v s = statusWrite v s := rfl

theorem statusWrite_eq (v : Word) (s : State) :
    statusWrite v s =
      { s with done := if v.getLsbD 1 then false else s.done, err := if v.getLsbD 2 then false else s.err,
               errcode := if v.getLsbD 2 then .noError else s.errcode } := by
  unfold statusWrite
  split_ifs <;> rfl

/-- Settles O24, by the bits of the STATUS word and the two cleared fields of its write. -/
theorem statusReadsItsFields : Obligations.StatusReadsItsFields := by
  intro s
  rw [busRead_status]
  refine ⟨rfl, statusWord_getLsbD s 0, statusWord_getLsbD s 1, statusWord_getLsbD s 2, statusWord_getLsbD s 3,
    by rw [statusWord_errcode, errCode_bits_eq], fun k hk => ?_, fun v => ?_⟩
  · have hbits : s.errcode.bits.getLsbD (k - 4) = false := BitVec.getLsbD_of_ge _ _ (by omega)
    simp [statusWord_getLsbD, hbits, show k ≠ 0 ∧ k ≠ 1 ∧ k ≠ 2 by omega]
  · rw [busWrite_status, statusWrite_eq]

@[simp] theorem quad_zero_get (r : Fin 4) : Quad.zero.get r = 0 := by
  revert r; exact forall_fin4.2 ⟨rfl, rfl, rfl, rfl⟩

@[simp] theorem block_zero_col (c : Fin 4) : Block.zero.col c = Quad.zero := by
  revert c; exact forall_fin4.2 ⟨rfl, rfl, rfl, rfl⟩

@[simp] theorem block_zero_get (i : Fin 16) : Block.zero.get i = 0 := by simp [Block.get]

@[simp] theorem keyTable_zero_get (i : Fin 11) : KeyTable.zero.get i = Block.zero := by
  match i with
  | 0 | 1 | 2 | 3 | 4 | 5 | 6 | 7 | 8 | 9 | 10 => rfl

@[simp] theorem pack_zero : pack Quad.zero = 0 := by decide

theorem statusWord_hostReset (s : State) : statusWord (hostReset s) = 0 := by
  simp [statusWord, bitWord, ErrCode.bits]

/-- Every word of the map reads 0 after reset. -/
theorem busPeek_hostReset (a : BusAddr) (s : State) : busPeek a (hostReset s) = 0 := by
  unfold busPeek
  split <;> simp [statusWord_hostReset]

/-- Settles O28, by the reset value of each register and the zero byte vectors' bytes. -/
theorem resetSetsEveryRegister : Obligations.ResetSetsEveryRegister := by
  intro s
  simp

/-- Settles O29: BUSY = 0 after reset, so a read is the current value. -/
theorem afterResetEveryWordReadsZero : Obligations.AfterResetEveryWordReadsZero := by
  intro s a
  simp [busRead, busPeek_hostReset]

end Sys2Proof.Proofs

/-! ### The words of the register map

The address of each register as a number, and what a bus write and a bus read do at it. The statements name words by
their numbers; the lemmas here turn a number into the register it is the address of. -/

namespace Sys2Proof.Proofs

open Sys2Proof Sys2Proof.Machine Sys2Proof.Laws Sys2Proof.Spec

@[simp] theorem regAddr_cmd_toNat : (regAddr .cmd).toNat = 0x00 := rfl
@[simp] theorem regAddr_status_toNat : (regAddr .status).toNat = 0x01 := rfl
@[simp] theorem regAddr_y_toNat : (regAddr .y).toNat = 0x02 := rfl
@[simp] theorem regAddr_w_toNat : (regAddr .w).toNat = 0x03 := rfl

@[simp] theorem regAddr_st_toNat (j : Fin 4) : (regAddr (.st j)).toNat = 0x04 + j.val := by
  simp only [regAddr, BitVec.toNat_ofNat]; omega

@[simp] theorem regAddr_ky_toNat (j : Fin 4) : (regAddr (.ky j)).toNat = 0x08 + j.val := by
  simp only [regAddr, BitVec.toNat_ofNat]; omega

@[simp] theorem regAddr_ks_toNat (i : Fin 11) (j : Fin 4) :
    (regAddr (.ks i j)).toNat = 0x10 + 4 * i.val + j.val := by
  simp only [regAddr, BitVec.toNat_ofNat]; omega

theorem regAt_none_reserved :
    ∀ a : BusAddr, regAt a = none → 0x0C ≤ a.toNat ∧ a.toNat ≤ 0x0F ∨ 0x3C ≤ a.toNat := by decide

/-- Every word address is a register's, or reserved (R20). -/
theorem busAddr_cases (a : BusAddr) :
    (∃ r, a = regAddr r) ∨ (regAt a = none ∧ (0x0C ≤ a.toNat ∧ a.toNat ≤ 0x0F ∨ 0x3C ≤ a.toNat)) := by
  cases hr : regAt a with
  | none => exact .inr ⟨rfl, regAt_none_reserved a hr⟩
  | some r =>
    have ha := regAddr_regAt a
    rw [hr] at ha
    have har : regAddr r = a := by simpa using ha
    exact .inl ⟨r, har.symm⟩

theorem eq_regAddr_st {a : BusAddr} (h : 0x04 ≤ a.toNat ∧ a.toNat ≤ 0x07) : ∃ j, a = regAddr (.st j) :=
  ⟨⟨a.toNat - 0x04, by omega⟩, BitVec.eq_of_toNat_eq (by simp only [regAddr_st_toNat]; omega)⟩

theorem eq_regAddr_ky {a : BusAddr} (h : 0x08 ≤ a.toNat ∧ a.toNat ≤ 0x0B) : ∃ j, a = regAddr (.ky j) :=
  ⟨⟨a.toNat - 0x08, by omega⟩, BitVec.eq_of_toNat_eq (by simp only [regAddr_ky_toNat]; omega)⟩

/-- The words that take a data write: W, ST and KY (R52). -/
theorem eq_regAddr_data {a : BusAddr} (h : 0x03 ≤ a.toNat ∧ a.toNat ≤ 0x0B) :
    a = regAddr .w ∨ (∃ j, a = regAddr (.st j)) ∨ ∃ j, a = regAddr (.ky j) := by
  by_cases hw : a.toNat = 0x03
  · exact .inl (BitVec.eq_of_toNat_eq hw)
  by_cases hst : a.toNat ≤ 0x07
  · exact .inr (.inl (eq_regAddr_st (by omega)))
  · exact .inr (.inr (eq_regAddr_ky (by omega)))

section Write

variable (v : Word) (s : State)

@[simp] theorem busWrite_regAddr_w : busWrite (regAddr .w) v s = dataWrite s (s.setW (unpack v)) := rfl

@[simp] theorem busWrite_regAddr_st (j : Fin 4) :
    busWrite (regAddr (.st j)) v s = dataWrite s (s.setSt (s.st.setCol j (unpack v))) := by
  simp only [busWrite, regAt_regAddr]

@[simp] theorem busWrite_regAddr_ky (j : Fin 4) :
    busWrite (regAddr (.ky j)) v s = dataWrite s (s.setKy (s.ky.setCol j (unpack v))) := by
  simp only [busWrite, regAt_regAddr]

variable {s}

theorem dataWrite_idle (hb : s.busy = false) (written : State) : dataWrite s written = written := by
  simp [dataWrite, hb]

theorem dataWrite_busy (hb : s.busy = true) (written : State) : dataWrite s written = raiseError .busyWrite s := by
  simp [dataWrite, hb]

/-- A data write while BUSY = 1 is dropped and recorded (R184). -/
theorem busWrite_data_busy {a : BusAddr} (ha : 0x03 ≤ a.toNat ∧ a.toNat ≤ 0x0B) (hb : s.busy = true) :
    busWrite a v s = raiseError .busyWrite s := by
  rcases eq_regAddr_data ha with rfl | ⟨j, rfl⟩ | ⟨j, rfl⟩ <;> simp [dataWrite_busy hb]

/-- Y, KS and the reserved words ignore a write (R52). -/
theorem busWrite_ignored {a : BusAddr} (ha : a.toNat = 0x02 ∨ 0x0C ≤ a.toNat) : busWrite a v s = s := by
  rcases busAddr_cases a with ⟨r, rfl⟩ | ⟨hr, -⟩
  · cases r with
    | y => rfl
    | ks i j => simp only [busWrite, regAt_regAddr]
    | cmd => simp at ha
    | status => simp at ha
    | w => simp at ha
    | st j => simp only [regAddr_st_toNat] at ha; omega
    | ky j => simp only [regAddr_ky_toNat] at ha; omega
  · simp only [busWrite, hr]

end Write

/-- `unpack` takes a bus word apart at the places of R14. -/
theorem unpack_get (v : Word) (k : Fin 4) : (unpack v).get k = byteOf v k := by
  have hbyte (n : Nat) : v.extractLsb' n 8 = BitVec.ofNat 8 (v.toNat / 2 ^ n) := by
    rw [← Nat.shiftRight_eq_div_pow]; rfl
  revert k
  exact forall_fin4.2 ⟨hbyte 24, hbyte 16, hbyte 8, hbyte 0⟩

theorem block_setCol_get (x : Block) (j : Fin 4) (q : Quad) (i : Fin 16) :
    (x.setCol j q).get i = if colOf i = j then q.get (rowOf i) else x.get i := by
  by_cases h : colOf i = j
  · simp [Block.get, h]
  · simp [Block.get, h]

theorem block_setCol_setCol (x : Block) (j : Fin 4) (p q : Quad) : (x.setCol j p).setCol j q = x.setCol j q := by
  revert j; exact forall_fin4.2 ⟨rfl, rfl, rfl, rfl⟩

/-- Settles O21, word by word of the map. -/
theorem busWriteFollowsTheMap : Obligations.BusWriteFollowsTheMap := by
  intro a v s
  refine ⟨fun h => ?cmd, fun h => ?status, fun h hb => busWrite_data_busy v h hb, fun h hb => ?w, fun h hb => ?st,
    fun h hb => ?ky, busWrite_ignored v⟩
  case cmd =>
    obtain rfl : a = 0x00 := BitVec.eq_of_toNat_eq h
    rfl
  case status =>
    obtain rfl : a = 0x01 := BitVec.eq_of_toNat_eq h
    rw [busWrite_status, statusWrite_eq]
    cases v.getLsbD 1 <;> cases v.getLsbD 2 <;> simp
  case w =>
    obtain rfl : a = regAddr .w := BitVec.eq_of_toNat_eq h
    rw [busWrite_regAddr_w, dataWrite_idle hb]
    exact ⟨unpack_get v, rfl⟩
  case st =>
    obtain ⟨j, rfl⟩ := eq_regAddr_st h
    rw [busWrite_regAddr_st, dataWrite_idle hb]
    exact ⟨fun i => by simp [block_setCol_get, unpack_get, Fin.ext_iff], rfl⟩
  case ky =>
    obtain ⟨j, rfl⟩ := eq_regAddr_ky h
    rw [busWrite_regAddr_ky, dataWrite_idle hb]
    exact ⟨fun i => by simp [block_setCol_get, unpack_get, Fin.ext_iff], rfl⟩

/-! ### What a bus read answers -/

section Read

variable (s : State)

@[simp] theorem busPeek_regAddr_w : busPeek (regAddr .w) s = pack s.w := rfl

@[simp] theorem busPeek_regAddr_st (j : Fin 4) : busPeek (regAddr (.st j)) s = pack (s.st.col j) := by
  simp only [busPeek, regAt_regAddr]

@[simp] theorem busPeek_regAddr_ky (j : Fin 4) : busPeek (regAddr (.ky j)) s = pack (s.ky.col j) := by
  simp only [busPeek, regAt_regAddr]

@[simp] theorem busPeek_regAddr_ks (i : Fin 11) (j : Fin 4) :
    busPeek (regAddr (.ks i j)) s = pack ((s.ks.get i).col j) := by
  simp only [busPeek, regAt_regAddr]

theorem busRead_idle {s : State} (hb : s.busy = false) (a : BusAddr) : busRead a s = (busPeek a s, s) := by
  simp [busRead, hb]

end Read

theorem writeSet_iff (i : Instr) (a : BusAddr) : writeSet i a = true ↔ writes i a.toNat := by
  cases i <;> simp [writeSet, writes, isYWord, isWWord, isStWord, isKyWord, isKsWord, BitVec.le_def, BitVec.toNat_eq]

/-- The model's busy window is that of R204. -/
theorem inBusyWindow_iff (s : State) (a : BusAddr) : inBusyWindow s a ↔ (s.busy && pendingWrites s a) = true := by
  cases hp : s.pend with
  | none => simp [inBusyWindow, pendingWrites, hp]
  | some v =>
    cases hd : decode v with
    | error e => simp [inBusyWindow, pendingWrites, hp, hd]
    | ok i => simp [inBusyWindow, pendingWrites, hp, hd, writeSet_iff]

/-- `pack` as the sum of R14. -/
theorem pack_eq_wordOf (q : Quad) : pack q = wordOf (q.get 0) (q.get 1) (q.get 2) (q.get 3) := by
  have hunpack : unpack (wordOf (q.get 0) (q.get 1) (q.get 2) (q.get 3)) = q := by
    apply quad_ext
    intro k
    rw [unpack_get]
    revert k
    refine forall_fin4.2 ⟨?_, ?_, ?_, ?_⟩ <;>
    · apply BitVec.eq_of_toNat_eq
      simp only [byteOf, wordOf, BitVec.toNat_ofNat, Fin.coe_ofNat_eq_mod, Nat.reduceMod, Nat.reduceMul, Nat.reduceSub]
      have := (q.get 0).isLt
      have := (q.get 1).isLt
      have := (q.get 2).isLt
      have := (q.get 3).isLt
      omega
  rw [← pack_unpack (wordOf _ _ _ _), hunpack]

theorem pack_col_eq_blockWord (x : Block) (j : Fin 4) : pack (x.col j) = blockWord x j.val := by
  have hget (r : Fin 4) : (x.col j).get r = x.get (Fin.ofNat 16 (4 * j.val + r.val)) := by
    rw [← block_get_byteIndex]
    congr 1
    apply Fin.ext
    simp only [byteIndex, Fin.val_ofNat]
    omega
  rw [pack_eq_wordOf, hget, hget, hget, hget]
  rfl

theorem statusWord_eq_sum (s : State) :
    statusWord s = BitVec.ofNat 32 (s.busy.toNat + 2 * s.done.toNat + 4 * s.err.toNat + 16 * codeOf s.errcode) := by
  unfold statusWord
  cases s.busy <;> cases s.done <;> cases s.err <;> cases s.errcode <;> rfl

section CurrentWord

variable (s : State)

theorem currentWord_st (j : Fin 4) : currentWord s (0x04 + j.val) = blockWord s.st j.val := by
  rw [currentWord, if_neg (by omega), if_neg (by omega), if_neg (by omega), if_pos (by omega), Nat.add_sub_cancel_left]

theorem currentWord_ky (j : Fin 4) : currentWord s (0x08 + j.val) = blockWord s.ky j.val := by
  rw [currentWord, if_neg (by omega), if_neg (by omega), if_neg (by omega), if_neg (by omega), if_pos (by omega),
    Nat.add_sub_cancel_left]

theorem currentWord_ks (i : Fin 11) (j : Fin 4) :
    currentWord s (0x10 + 4 * i.val + j.val) = blockWord (s.ks.get i) j.val := by
  have hi : Fin.ofNat 11 ((0x10 + 4 * i.val + j.val - 0x10) / 4) = i := by
    apply Fin.ext
    simp only [Fin.val_ofNat]
    omega
  have hj : (0x10 + 4 * i.val + j.val - 0x10) % 4 = j.val := by omega
  rw [currentWord, if_neg (by omega), if_neg (by omega), if_neg (by omega), if_neg (by omega), if_neg (by omega),
    if_pos (by omega), hi, hj]

theorem currentWord_reserved {n : Nat} (h : 0x0C ≤ n ∧ n ≤ 0x0F ∨ 0x3C ≤ n) : currentWord s n = 0 := by
  rw [currentWord, if_neg (by omega), if_neg (by omega), if_neg (by omega), if_neg (by omega), if_neg (by omega),
    if_neg (by omega)]

end CurrentWord

/-- The current value of a word is that of the map of R20. -/
theorem busPeek_eq_currentWord (a : BusAddr) (s : State) : busPeek a s = currentWord s a.toNat := by
  rcases busAddr_cases a with ⟨r, rfl⟩ | ⟨hr, ha⟩
  · cases r with
    | cmd => rfl
    | status => exact statusWord_eq_sum s
    | y => exact (BitVec.ofNat_toNat 32 s.y).symm
    | w => exact pack_eq_wordOf s.w
    | st j => rw [busPeek_regAddr_st, pack_col_eq_blockWord, regAddr_st_toNat, currentWord_st]
    | ky j => rw [busPeek_regAddr_ky, pack_col_eq_blockWord, regAddr_ky_toNat, currentWord_ky]
    | ks i j => rw [busPeek_regAddr_ks, pack_col_eq_blockWord, regAddr_ks_toNat, currentWord_ks]
  · rw [currentWord_reserved s ha, busPeek, hr]

/-- Settles O20: the busy window decides, and outside it the word is the map's. -/
theorem busReadFollowsTheMap : Obligations.BusReadFollowsTheMap := by
  intro a s
  constructor
  · intro h
    rw [inBusyWindow_iff] at h
    rw [busRead, if_neg h, busPeek_eq_currentWord]
  · intro h
    rw [busRead, if_pos ((inBusyWindow_iff s a).1 h)]
    rfl

/-! ### A written word, read back and written again -/

section ReadBack

variable {s : State} {a : BusAddr}

/-- A data write while BUSY = 0 leaves BUSY = 0. -/
theorem busWrite_data_idle (v : Word) (ha : 0x03 ≤ a.toNat ∧ a.toNat ≤ 0x0B) (hb : s.busy = false) :
    (busWrite a v s).busy = false := by
  rcases eq_regAddr_data ha with rfl | ⟨j, rfl⟩ | ⟨j, rfl⟩ <;> simp [dataWrite_idle hb, hb]

theorem busPeek_busWrite_same (v : Word) (ha : 0x03 ≤ a.toNat ∧ a.toNat ≤ 0x0B) (hb : s.busy = false) :
    busPeek a (busWrite a v s) = v := by
  rcases eq_regAddr_data ha with rfl | ⟨j, rfl⟩ | ⟨j, rfl⟩ <;> simp [dataWrite_idle hb]

/-- A word reads the same in two states that agree in its own register or column. -/
theorem busPeek_congr {b : BusAddr} {t : State} (hstatus : statusWord t = statusWord s) (hy : t.y = s.y)
    (hks : t.ks = s.ks) (hw : b = regAddr .w → t.w = s.w) (hst : ∀ j, b = regAddr (.st j) → t.st.col j = s.st.col j)
    (hky : ∀ j, b = regAddr (.ky j) → t.ky.col j = s.ky.col j) : busPeek b t = busPeek b s := by
  rcases busAddr_cases b with ⟨r, rfl⟩ | ⟨hr, -⟩
  · cases r with
    | cmd => rfl
    | status => exact hstatus
    | y => exact congrArg (BitVec.setWidth 32) hy
    | w => exact congrArg pack (hw rfl)
    | st j => simp [hst j rfl]
    | ky j => simp [hky j rfl]
    | ks i j => simp [hks]
  · simp only [busPeek, hr]

theorem busPeek_busWrite_other (v : Word) {b : BusAddr} (ha : 0x03 ≤ a.toNat ∧ a.toNat ≤ 0x0B)
    (hb : s.busy = false) (hne : b ≠ a) : busPeek b (busWrite a v s) = busPeek b s := by
  rcases eq_regAddr_data ha with rfl | ⟨j, rfl⟩ | ⟨j, rfl⟩
  · rw [busWrite_regAddr_w, dataWrite_idle hb]
    exact busPeek_congr rfl rfl rfl (fun h => absurd h hne) (fun _ _ => rfl) (fun _ _ => rfl)
  · rw [busWrite_regAddr_st, dataWrite_idle hb]
    exact busPeek_congr rfl rfl rfl (fun _ => rfl)
      (fun k hk => block_setCol_other s.st _ (by rintro rfl; exact hne hk)) (fun _ _ => rfl)
  · rw [busWrite_regAddr_ky, dataWrite_idle hb]
    exact busPeek_congr rfl rfl rfl (fun _ => rfl) (fun _ _ => rfl)
      (fun k hk => block_setCol_other s.ky _ (by rintro rfl; exact hne hk))

/-- A data write is idempotent (R57): its second run finds BUSY = 0 again and writes the same bytes. -/
theorem busWrite_data_twice (v : Word) (ha : 0x03 ≤ a.toNat ∧ a.toNat ≤ 0x0B) (hb : s.busy = false) :
    busWrite a v (busWrite a v s) = busWrite a v s := by
  have hb' := busWrite_data_idle v ha hb
  rcases eq_regAddr_data ha with rfl | ⟨j, rfl⟩ | ⟨j, rfl⟩
  · rw [busWrite_regAddr_w, dataWrite_idle hb', busWrite_regAddr_w, dataWrite_idle hb]
    rfl
  · rw [busWrite_regAddr_st, dataWrite_idle hb', busWrite_regAddr_st, dataWrite_idle hb, setSt_st, block_setCol_setCol]
    rfl
  · rw [busWrite_regAddr_ky, dataWrite_idle hb', busWrite_regAddr_ky, dataWrite_idle hb, setKy_ky, block_setCol_setCol]
    rfl

theorem statusWrite_twice (v : Word) (s : State) : statusWrite v (statusWrite v s) = statusWrite v s := by
  rw [statusWrite_eq v (statusWrite v s), statusWrite_eq v s]
  cases v.getLsbD 1 <;> cases v.getLsbD 2 <;> rfl

end ReadBack

/-- Settles O22: a data write leaves BUSY = 0, so every read after it is the current value. -/
theorem writtenWordReadsBackAlone : Obligations.WrittenWordReadsBackAlone := by
  intro a v s hb ha
  have hb' := busWrite_data_idle v ha hb
  refine ⟨?_, fun b hne => ?_⟩
  · rw [busRead_idle hb', busPeek_busWrite_same v ha hb]
  · rw [busRead_idle hb', busRead_idle hb, busPeek_busWrite_other v ha hb hne]

/-- Settles O23. Issuing ROTW twice records BUSY_WRITE, and issuing it once does not. -/
theorem sideEffectsOfBusAccesses : Obligations.SideEffectsOfBusAccesses := by
  refine ⟨fun a s => ?_, fun a v s ha hb => busWrite_data_twice v ha hb, fun v s => ?_,
    ⟨0x04000000, State.reset, fun h => ?_⟩, fun a v s ha => busWrite_ignored v ha⟩
  · rcases busRead_cases a s with e | e
    · rw [e]
    · rw [e]; rfl
  · rw [busWrite_status, busWrite_status, statusWrite_twice]
  · have herr : (busWrite 0x00 0x04000000 (busWrite 0x00 0x04000000 State.reset)).err = true := rfl
    rw [h] at herr
    cases herr

/-! ### Platform accesses -/

theorem platformWord_aligned (inst : Nat) (a : BusAddr) :
    platformWord inst (Config.coreBase inst + 4 * a.toNat) 4 = .ok a := by
  have hbase : Config.coreBase inst % 4 = 0 := Nat.mul_mod_right 4 _
  have ha := a.isLt
  have hword : (Config.coreBase inst + 4 * a.toNat - Config.coreBase inst) / 4 = a.toNat := by omega
  rw [platformWord, if_neg (by omega), if_neg (by omega), if_neg (by omega), hword, BitVec.ofNat_toNat,
    BitVec.setWidth_eq]

theorem platformWord_refuses (inst : Nat) {b n : Nat} (h : n ≠ 4 ∨ b % 4 ≠ 0) :
    ∃ r, platformWord inst b n = .error r := by
  by_cases hn : n = 4
  · exact ⟨.platformMisaligned, by simp [platformWord, hn, show b % 4 ≠ 0 by omega]⟩
  · exact ⟨.platformWidth, by simp [platformWord, hn]⟩

/-- Settles O30, by what the address translates to. -/
theorem platformAccessReachesItsWord : Obligations.PlatformAccessReachesItsWord := by
  refine ⟨fun k => Nat.mul_mod_right 4 _, fun a v s => ?_, fun b n v s h => ?_⟩
  · simp only [hostPerform, platformWord_aligned, and_self]
  · obtain ⟨r, hr⟩ := platformWord_refuses s.inst h
    exact ⟨r, by simp only [hostPerform, hr, and_self]⟩

/-! ### The Host's steps and duties -/

section HostStep

variable {s t : State}

theorem step_of_pend_none (hp : s.pend = none) : step s = hostStep s := by
  simp [step, coreMoves, hp]

theorem step_of_coreWait_pos (hw : 0 < s.coreWait) {op : HostOp} {rest : List HostOp} (hh : s.host = op :: rest) :
    step s = hostStep s := by
  have hne : s.coreWait ≠ 0 := by omega
  simp [step, coreMoves, hh, hne]

theorem hostStep_cons {op : HostOp} {rest : List HostOp} (hh : s.host = op :: rest) :
    hostStep s = hostPerform op (s.tickWait.setHost rest) := by
  simp [hostStep, hh]

theorem hostStep_nil (hh : s.host = []) : hostStep s = .next s := by
  simp [hostStep, hh]

/-- A read the Host performs: the bus read, and its word appended to what the Host has got back (R66). -/
theorem hostPerform_read (a : BusAddr) (name : Option (List Char)) (s : State) :
    hostPerform (.read a name) s =
      .next { (busRead a s).2 with reads := s.reads ++ [⟨a, (busRead a s).1, name⟩] } := by
  simp only [hostPerform, hostRead]
  rcases busRead_cases a s with e | e <;> rw [e] <;> rfl

end HostStep

/-- Settles O9, by the Host's own step. -/
theorem stepRunsTheNextHostOperation : Obligations.StepRunsTheNextHostOperation := by
  refine ⟨fun s op rest hh hp => ?_, fun s op rest n hh hw => ?_, fun s hh hp => ?_, fun _ _ _ => rfl,
    hostPerform_read, fun _ => rfl⟩
  · rw [step_of_pend_none hp, hostStep_cons hh]
    rfl
  · rw [step_of_coreWait_pos (by omega) hh, hostStep_cons hh, State.tickWait, hw, Nat.add_sub_cancel]
    rfl
  · rw [step_of_pend_none hp, hostStep_nil hh]

/-- Settles O18: bit 0 of STATUS is BUSY, and BUSY = 0 leaves nothing pending. -/
theorem statusNotBusyMeansComplete : Obligations.StatusNotBusyMeansComplete := by
  intro s hs hread
  obtain ⟨hbusy, -⟩ := hs
  rw [busRead_status, statusWord_bit0] at hread
  rw [hread] at hbusy
  simpa using hbusy.symm

section Duties

variable {s t : State}

/-- The duty of an issue (R66). -/
theorem dutiful_issue {v : Word} (h : (HostOp.write 0x00 v).dutiful s = true) :
    s.busy = false ∧ acceptedWord v = true := by
  simpa [HostOp.dutiful] using h

/-- The duty of a data write (R66). -/
theorem dutiful_dataWrite {a : BusAddr} {v : Word} (h : (HostOp.write a v).dutiful s = true)
    (ha : a = 0x03 ∨ isStWord a = true ∨ isKyWord a = true) : s.busy = false := by
  by_cases h0 : a = 0x00
  · subst h0
    exact (dutiful_issue h).1
  · rw [HostOp.dutiful, if_neg h0, if_pos ha] at h
    simpa using h

@[simp] theorem statusWrite_faultMark (v : Word) (s : State) : (statusWrite v s).faultMark = s.faultMark := by
  rw [statusWrite_eq]

@[simp] theorem hostRead_faultMark (a : BusAddr) (name : Option (List Char)) (s : State) :
    (hostRead a name s).faultMark = s.faultMark := by
  rcases busRead_cases a s with e | e <;> simp [hostRead, e]

@[simp] theorem hostPoll_faultMark (s : State) : (hostPoll s).faultMark = s.faultMark := by
  rw [hostPoll_eq]
  split <;> rfl

theorem issue_faultMark {v : Word} (hb : s.busy = false) (hv : acceptedWord v = true) :
    (issue v s).faultMark = s.faultMark := by
  obtain ⟨i, hd, hn⟩ := (acceptedWord_iff v).1 hv
  rw [issue_accepted hb hd hn, acceptCommand_faultMark]

/-- A write that keeps the Host's duties sets no fault mark: the two cases that record an error are what the duties
exclude. -/
theorem busWrite_faultMark_of_dutiful {a : BusAddr} {v : Word} (h : (HostOp.write a v).dutiful s = true) :
    (busWrite a v s).faultMark = s.faultMark := by
  rcases busWrite_cases a v s with ⟨rfl, e⟩ | ⟨-, e⟩ | e | ⟨hb, ha, -⟩ | ⟨-, e | ⟨x, e⟩ | ⟨x, e⟩⟩
  · obtain ⟨hb, hv⟩ := dutiful_issue h
    rw [e, issue_faultMark hb hv]
  · rw [e, statusWrite_faultMark]
  · rw [e]
  · rw [dutiful_dataWrite h ha] at hb
    cases hb
  all_goals rw [e]; rfl

theorem hostPerform_faultMark_of_dutiful {op : HostOp} (h : op.dutiful s = true) (ht : hostPerform op s = .next t) :
    t.faultMark = s.faultMark := by
  rcases hostPerform_cases ht with ⟨a, v, hop, rfl⟩ | ⟨a, name, rfl⟩ | ⟨-, rfl⟩ | ⟨-, rfl⟩
  · rcases hop with rfl | ⟨b, n, rfl, -⟩
    · exact busWrite_faultMark_of_dutiful h
    · simp [HostOp.dutiful] at h
  · exact hostRead_faultMark a name s
  · exact hostPoll_faultMark s
  · rfl

theorem execResult_faultMark {i : Instr} (hn : domainError i = none) (hr : ExecResult i s t) :
    t.faultMark = s.faultMark := by
  cases hr with
  | raised code hc => simp [hn] at hc
  | _ => rfl

/-- Under the invariant what is pending is a command in its domain. -/
theorem domainError_of_pend {v : Word} {i : Instr} (hs : s.Inv) (hp : s.pend = some v) (hd : decode v = .ok i) :
    domainError i = none := by
  obtain ⟨-, -, -, hpend, -⟩ := hs
  obtain ⟨i', hd', hn⟩ := (acceptedWord_iff v).1 (by simpa [hp] using hpend)
  obtain rfl : i = i' := by simpa [hd] using hd'
  exact hn

/-- Whether an operation is dutiful does not depend on the fields that taking it off the Host's program changes. -/
theorem dutiful_tickWait_setHost (op : HostOp) (s : State) (rest : List HostOp) :
    op.dutiful (s.tickWait.setHost rest) = op.dutiful s := by cases op <;> rfl

end Duties

/-- Settles O17, by which agent moves. -/
theorem dutifulHostSetsNoFaultMark : Obligations.DutifulHostSetsNoFaultMark := by
  intro s t hs hmark hduty ht
  rw [← hmark]
  rcases step_cases ht with ⟨-, v, i, u, hp, hd, -, hr, rfl⟩ | ⟨-, op, rest, hh, hop⟩ | ⟨-, -, -, rfl⟩
  · exact (completeCommand_faultMark u).trans (execResult_faultMark (domainError_of_pend hs hp hd) hr)
  · have hdop : op.dutiful s = true := hduty op (by simp [hh])
    rw [← dutiful_tickWait_setHost op s rest] at hdop
    exact hostPerform_faultMark_of_dutiful (s := s.tickWait.setHost rest) hdop hop
  · rfl

/-! ### The end of every Host program

A step that is not at the end leaves fewer Host operations, or as many and a smaller delay of the pending command: the
polls of a WAIT are paid for by that delay, which each of them counts down. -/

section Ending

variable {s t : State}

/-- How long the pending command still holds up a WAIT: its remaining delay and the Core's step. -/
def coreDue (s : State) : Nat := if s.pend.isSome then s.coreWait + 1 else 0

/-- A Host operation is used up, or it is a poll of WAIT that goes round again. -/
theorem hostPerform_uses_up_or_polls {op : HostOp} (ht : hostPerform op s = .next t) :
    t.host = s.host ∨
      (op = .wait ∧ s.busy = true ∧ t.host = .wait :: s.host ∧ t.pend = s.pend ∧ t.coreWait = s.coreWait) := by
  rcases hostPerform_cases ht with ⟨a, v, -, rfl⟩ | ⟨a, name, rfl⟩ | ⟨rfl, rfl⟩ | ⟨-, rfl⟩
  · exact .inl (busWrite_host a v s)
  · exact .inl (hostRead_host a name s)
  · rw [hostPoll_eq]
    cases hb : s.busy with
    | false => exact .inl rfl
    | true => exact .inr ⟨rfl, rfl, rfl, rfl, rfl⟩
  · exact .inl rfl

theorem step_lowers_rest (hs : s.Inv) (hend : s.ended = false) (ht : step s = .next t) :
    t.host.length < s.host.length ∨ t.host.length = s.host.length ∧ coreDue t < coreDue s := by
  rcases step_cases ht with ⟨-, v, i, u, hp, -, -, hr, rfl⟩ | ⟨hm, op, rest, hh, hop⟩ | ⟨-, hh, hp, -⟩
  · right
    exact ⟨congrArg List.length ((completeCommand_host u).trans (execResult_host hr)), by simp [coreDue, hp]⟩
  · rcases hostPerform_uses_up_or_polls hop with e | ⟨rfl, hb, ehost, epend, ewait⟩
    · left
      simp [e, hh]
    · right
      obtain ⟨hbusy, -⟩ := hs
      have hpend : s.pend.isSome = true := hbusy.symm.trans hb
      have hwait : s.coreWait ≠ 0 := by simpa [coreMoves, hpend, hh] using hm
      refine ⟨by simp [ehost, hh], ?_⟩
      simp only [coreDue, epend, ewait, setHost_pend, tickWait_pend, setHost_coreWait, tickWait_coreWait, hpend, if_true]
      omega
  · simp [State.ended, hh, hp] at hend

/-- Every program ends: the Host operations left, and then the delay of what is pending, go down at every step. -/
theorem run_ends (s : State) (hs : s.Inv) (hport : ∀ op ∈ s.host, op.atPort = true) :
    ∃ n t, runSteps n s = .next t ∧ t.ended = true := by
  cases hend : s.ended with
  | true => exact ⟨0, s, rfl, hend⟩
  | false =>
    obtain ⟨t, ht, hport'⟩ := noStepStopsTheMachine s hs hport
    obtain ⟨n, u, hn, hu⟩ := run_ends t (inv_step hs ht) hport'
    exact ⟨n + 1, u, (runSteps_succ n ht).trans hn, hu⟩
termination_by (s.host.length, coreDue s)
decreasing_by exact Prod.lex_def.2 (step_lowers_rest hs hend ht)

end Ending

/-- Settles O13, by induction on what is left to do. -/
theorem everyHostProgramEnds : Obligations.EveryHostProgramEnds := run_ends

end Sys2Proof.Proofs

/-! ### The command encoding as arithmetic on the fields

A command word is its five fields, each a number (`Spec.opNat` and its companions). Selection by mask and match, the
decoder and the encoder are all read off those numbers; `decode_eq_ok_iff` says once what the decoder answers. -/

namespace Sys2Proof.Proofs

open Sys2Proof Sys2Proof.Machine Sys2Proof.Laws Sys2Proof.Spec

/-- In a list whose entries have distinct keys, a test that only an entry with one key passes finds that entry. -/
theorem find?_eq_some_iff_of_key {α κ : Type} {l : List α} {p : α → Bool} {key : α → κ} {k : κ}
    (hl : (l.map key).Nodup) (hk : ∀ x ∈ l, p x = true → key x = k) (x : α) :
    l.find? p = some x ↔ x ∈ l ∧ p x = true := by
  constructor
  · exact fun h => ⟨List.mem_of_find?_eq_some h, List.find?_some h⟩
  · rintro ⟨hx, hpx⟩
    obtain ⟨y, hy⟩ := Option.isSome_iff_exists.1 (List.find?_isSome.2 ⟨x, hx, hpx⟩)
    have hmem := List.mem_of_find?_eq_some hy
    have hkey : key y = key x := (hk y hmem (List.find?_some hy)).trans (hk x hx hpx).symm
    rw [hy, List.inj_on_of_nodup_map hl hmem hx hkey]

section Fields

variable (v w : Word)

@[simp] theorem pField_eq : pField v = pNat v := by
  simp only [pField, pNat, BitVec.extractLsb'_toNat, Nat.shiftRight_eq_div_pow]

@[simp] theorem qField_eq : qField v = qNat v := by
  simp only [qField, qNat, BitVec.extractLsb'_toNat, Nat.shiftRight_eq_div_pow]

@[simp] theorem aField_toNat : (aField v).toNat = aNat v := by
  simp only [aField, aNat, BitVec.extractLsb'_toNat, Nat.shiftRight_eq_div_pow]

@[simp] theorem bField_toNat : (bField v).toNat = bNat v := by
  simp only [bField, bNat, BitVec.extractLsb'_toNat, Nat.shiftRight_zero]

theorem opNat_lt : opNat v < 2 ^ 8 := by simp only [opNat]; omega
theorem pNat_lt : pNat v < 2 ^ 4 := by simp only [pNat]; omega
theorem qNat_lt : qNat v < 2 ^ 4 := by simp only [qNat]; omega
theorem aNat_lt : aNat v < 2 ^ 8 := by simp only [aNat]; omega
theorem bNat_lt : bNat v < 2 ^ 8 := by simp only [bNat]; omega

/-- A word is its five fields (R70). -/
theorem word_eq_iff_fields :
    v = w ↔ opNat v = opNat w ∧ pNat v = pNat w ∧ qNat v = qNat w ∧ aNat v = aNat w ∧ bNat v = bNat w := by
  constructor
  · rintro rfl
    exact ⟨rfl, rfl, rfl, rfl, rfl⟩
  · intro h
    apply BitVec.eq_of_toNat_eq
    simp only [opNat, pNat, qNat, aNat, bNat] at h
    omega

/-! Masking a word masks each field, and a mask of the encoding keeps or drops whole fields. -/

theorem opNat_and : opNat (v &&& w) = opNat v &&& opNat w := by
  simp only [opNat, BitVec.toNat_and, Nat.and_div_two_pow]

theorem pNat_and : pNat (v &&& w) = pNat v &&& pNat w := by
  simp only [pNat, BitVec.toNat_and, Nat.and_div_two_pow, show 16 = 2 ^ 4 from rfl, Nat.and_mod_two_pow]

theorem qNat_and : qNat (v &&& w) = qNat v &&& qNat w := by
  simp only [qNat, BitVec.toNat_and, Nat.and_div_two_pow, show 16 = 2 ^ 4 from rfl, Nat.and_mod_two_pow]

theorem aNat_and : aNat (v &&& w) = aNat v &&& aNat w := by
  simp only [aNat, BitVec.toNat_and, Nat.and_div_two_pow, show 256 = 2 ^ 8 from rfl, Nat.and_mod_two_pow]

theorem bNat_and : bNat (v &&& w) = bNat v &&& bNat w := by
  simp only [bNat, BitVec.toNat_and, show 256 = 2 ^ 8 from rfl, Nat.and_mod_two_pow]

@[simp] theorem opNat_and_full : opNat v &&& 255 = opNat v := Nat.and_two_pow_sub_one_of_lt_two_pow (opNat_lt v)
@[simp] theorem pNat_and_full : pNat v &&& 15 = pNat v := Nat.and_two_pow_sub_one_of_lt_two_pow (pNat_lt v)
@[simp] theorem qNat_and_full : qNat v &&& 15 = qNat v := Nat.and_two_pow_sub_one_of_lt_two_pow (qNat_lt v)
@[simp] theorem aNat_and_full : aNat v &&& 255 = aNat v := Nat.and_two_pow_sub_one_of_lt_two_pow (aNat_lt v)
@[simp] theorem bNat_and_full : bNat v &&& 255 = bNat v := Nat.and_two_pow_sub_one_of_lt_two_pow (bNat_lt v)

end Fields

/-! ### The decoder -/

/-- A row selects a word field by field (R73). -/
theorem rowMatches_iff_fields (r : OpcodeRow) (v : Word) :
    rowMatches r v = true ↔ opNat v &&& opNat r.mask = opNat r.matchBits ∧ pNat v &&& pNat r.mask = pNat r.matchBits ∧
      qNat v &&& qNat r.mask = qNat r.matchBits ∧ aNat v &&& aNat r.mask = aNat r.matchBits ∧
      bNat v &&& bNat r.mask = bNat r.matchBits := by
  rw [rowMatches, beq_iff_eq, word_eq_iff_fields, opNat_and, pNat_and, qNat_and, aNat_and, bNat_and]

theorem opcodeRows_mask_op : ∀ r ∈ opcodeRows, opNat r.mask = 255 := by decide

theorem opcodeRows_op_nodup : (opcodeRows.map fun r => opNat r.matchBits).Nodup := by decide

/-- A word decodes by any row that selects it: each row fixes OP, and no two rows have the same OP (R73, R74). -/
theorem decode_eq_ok_iff_row (v : Word) (i : Instr) :
    decode v = .ok i ↔ ∃ r ∈ opcodeRows, rowMatches r v = true ∧ r.build v = i := by
  have hfind := find?_eq_some_iff_of_key (p := fun r => rowMatches r v) (k := opNat v) opcodeRows_op_nodup
    fun r hr hm => by
      obtain ⟨hop, -⟩ := (rowMatches_iff_fields r v).1 hm
      rw [← hop, opcodeRows_mask_op r hr, opNat_and_full]
  have hlookup : decode v = .ok i ↔ ∃ r, opcodeRows.find? (fun r => rowMatches r v) = some r ∧ r.build v = i := by
    unfold decode
    cases opcodeRows.find? (fun r => rowMatches r v) <;> simp
  simp only [hlookup, hfind, and_assoc]

theorem opNat_ofNat (n : Nat) : opNat (BitVec.ofNat 32 n) = n % 2 ^ 32 / 2 ^ 24 := by rw [opNat, BitVec.toNat_ofNat]
theorem pNat_ofNat (n : Nat) : pNat (BitVec.ofNat 32 n) = n % 2 ^ 32 / 2 ^ 20 % 16 := by rw [pNat, BitVec.toNat_ofNat]
theorem qNat_ofNat (n : Nat) : qNat (BitVec.ofNat 32 n) = n % 2 ^ 32 / 2 ^ 16 % 16 := by rw [qNat, BitVec.toNat_ofNat]
theorem aNat_ofNat (n : Nat) : aNat (BitVec.ofNat 32 n) = n % 2 ^ 32 / 2 ^ 8 % 256 := by rw [aNat, BitVec.toNat_ofNat]
theorem bNat_ofNat (n : Nat) : bNat (BitVec.ofNat 32 n) = n % 2 ^ 32 % 256 := by rw [bNat, BitVec.toNat_ofNat]

/-- A row selects exactly the legal words whose OP and operands are those of the command it builds (R72, R73, R75). -/
theorem rowMatches_iff {r : OpcodeRow} (hr : r ∈ opcodeRows) (v : Word) :
    rowMatches r v = true ↔ fieldsOf v (r.build v) ∧ ¬illegal v := by
  rw [rowMatches_iff_fields]
  simp only [opcodeRows, List.mem_cons, List.not_mem_nil, or_false] at hr
  rcases hr with rfl | rfl | rfl | rfl | rfl | rfl | rfl | rfl | rfl | rfl | rfl | rfl | rfl
  all_goals
    simp only [fieldsOf, illegal, BitVec.ofNat_eq_ofNat, opNat_ofNat, pNat_ofNat, qNat_ofNat, aNat_ofNat, bNat_ofNat,
      Nat.reducePow, Nat.reduceMod, Nat.reduceDiv, Nat.and_zero, opNat_and_full, pNat_and_full, qNat_and_full,
      aNat_and_full, bNat_and_full, aField_toNat, bField_toNat, pField_eq, qField_eq, true_and, and_true]
    omega

/-- Each command has the row that builds it from a word with its operands. -/
theorem exists_row_build {v : Word} {i : Instr} (h : fieldsOf v i) : ∃ r ∈ opcodeRows, r.build v = i := by
  simp only [opcodeRows, List.exists_mem_cons_iff]
  cases i <;> simp_all [fieldsOf, BitVec.toNat_eq]

/-- The decoder answers a command exactly on the legal words that have its OP and its operands (R74, R75). -/
theorem decode_eq_ok_iff (v : Word) (i : Instr) : decode v = .ok i ↔ fieldsOf v i ∧ ¬illegal v := by
  rw [decode_eq_ok_iff_row]
  constructor
  · rintro ⟨r, hr, hm, rfl⟩
    exact (rowMatches_iff hr v).1 hm
  · rintro ⟨hf, hl⟩
    obtain ⟨r, hr, rfl⟩ := exists_row_build hf
    exact ⟨r, hr, (rowMatches_iff hr v).2 ⟨hf, hl⟩, rfl⟩

/-- A legal word has an assigned opcode, and with it a command (R72, R75). -/
theorem exists_fieldsOf_of_legal {v : Word} (hl : ¬illegal v) : ∃ i, fieldsOf v i := by
  have hop : opNat v = 1 ∨ opNat v = 2 ∨ opNat v = 3 ∨ opNat v = 4 ∨ opNat v = 5 ∨ opNat v = 6 ∨ opNat v = 7 ∨
      opNat v = 8 ∨ opNat v = 9 ∨ opNat v = 10 ∨ opNat v = 11 ∨ opNat v = 12 ∨ opNat v = 13 := by
    rw [illegal] at hl
    omega
  rcases hop with h | h | h | h | h | h | h | h | h | h | h | h | h
  · exact ⟨.gmul (aField v) (bField v), h, aField_toNat v, bField_toNat v⟩
  · exact ⟨.sbyte (aField v), h, aField_toNat v⟩
  · exact ⟨.subrng (pNat v) (qNat v), h, rfl, rfl⟩
  · exact ⟨.rotw, h⟩
  · exact ⟨.subw, h⟩
  · exact ⟨.addrc (pNat v), h, rfl⟩
  · exact ⟨.keyexp (pNat v), h, rfl⟩
  · exact ⟨.keysched, h⟩
  · exact ⟨.shrows, h⟩
  · exact ⟨.mixcol, h⟩
  · exact ⟨.addrk, h⟩
  · exact ⟨.subst, h⟩
  · exact ⟨.encrypt, h⟩

/-- The decoder refuses exactly the illegal words (R75). -/
theorem decode_eq_error_iff (v : Word) : (∃ e, decode v = .error e) ↔ illegal v := by
  cases hd : decode v with
  | error e =>
    simp only [Except.error.injEq, exists_eq', true_iff]
    by_contra hl
    obtain ⟨i, hf⟩ := exists_fieldsOf_of_legal hl
    rw [(decode_eq_ok_iff v i).2 ⟨hf, hl⟩] at hd
    cases hd
  | ok i => simpa using ((decode_eq_ok_iff v i).1 hd).2

/-! ### The encoder -/

section CommandWord

variable (op : BitVec 8) (p q : Nat) (a b : Byte)

theorem toNat_append_eq_add {m n : Nat} (x : BitVec m) (y : BitVec n) : (x ++ y).toNat = x.toNat * 2 ^ n + y.toNat := by
  rw [BitVec.toNat_append, ← Nat.shiftLeft_add_eq_or_of_lt y.isLt, Nat.shiftLeft_eq]

theorem commandWord_toNat : (commandWord op p q a b).toNat =
    op.toNat * 2 ^ 24 + p % 16 * 2 ^ 20 + q % 16 * 2 ^ 16 + a.toNat * 2 ^ 8 + b.toNat := by
  simp only [commandWord, toNat_append_eq_add, BitVec.toNat_ofNat]
  omega

@[simp] theorem opNat_commandWord : opNat (commandWord op p q a b) = op.toNat := by
  rw [opNat, commandWord_toNat]
  omega

@[simp] theorem pNat_commandWord : pNat (commandWord op p q a b) = p % 16 := by
  rw [pNat, commandWord_toNat]
  omega

@[simp] theorem qNat_commandWord : qNat (commandWord op p q a b) = q % 16 := by
  rw [qNat, commandWord_toNat]
  omega

@[simp] theorem aNat_commandWord : aNat (commandWord op p q a b) = a.toNat := by
  rw [aNat, commandWord_toNat]
  omega

@[simp] theorem bNat_commandWord : bNat (commandWord op p q a b) = b.toNat := by
  rw [bNat, commandWord_toNat]
  omega

end CommandWord

/-- The encoding of a well-formed command has its OP and its operands in their fields (R82). -/
theorem fieldsOf_encode {i : Instr} (hi : i.wf = true) : fieldsOf (encode i) i := by
  cases i <;> simp_all [fieldsOf, encode, Instr.wf, fitsNibble, Nat.mod_eq_of_lt]

/-- The encoding of a command has zero in every field it does not use (R75, R82). -/
theorem not_illegal_encode (i : Instr) : ¬illegal (encode i) := by
  cases i <;> simp [illegal, encode]

/-- A legal word is the encoding of the command with its OP and its operands (R70, R82). -/
theorem encode_eq_of_fieldsOf {v : Word} {i : Instr} (hf : fieldsOf v i) (hl : ¬illegal v) : encode i = v := by
  have := pNat_lt v
  have := qNat_lt v
  rw [word_eq_iff_fields]
  rw [illegal] at hl
  cases i
  all_goals
    simp only [encode, fieldsOf, opNat_commandWord, pNat_commandWord, qNat_commandWord, aNat_commandWord,
      bNat_commandWord, BitVec.ofNat_eq_ofNat, BitVec.toNat_ofNat, Nat.reducePow, Nat.reduceMod] at hf ⊢
    omega

/-- A field of a word holds a natural that fits it (R71). -/
theorem wf_of_fieldsOf {v : Word} {i : Instr} (hf : fieldsOf v i) : i.wf = true := by
  have := pNat_lt v
  have := qNat_lt v
  cases i <;> simp_all [fieldsOf, Instr.wf, fitsNibble]

/-- Settles O1: the encoding of a well-formed command is a legal word with its OP and its operands. -/
theorem decodeOfEncodeIsTheCommand : Obligations.DecodeOfEncodeIsTheCommand :=
  fun i hi => (decode_eq_ok_iff (encode i) i).2 ⟨fieldsOf_encode hi, not_illegal_encode i⟩

/-- Settles O2: a word that decodes is legal and has the command's fields, and these are the whole word. -/
theorem encodeOfDecodeIsTheWord : Obligations.EncodeOfDecodeIsTheWord := by
  intro v i hd
  obtain ⟨hf, hl⟩ := (decode_eq_ok_iff v i).1 hd
  exact ⟨wf_of_fieldsOf hf, encode_eq_of_fieldsOf hf hl⟩

/-- Settles O4, by what the decoder answers. -/
theorem decodedOperandsAreTheFields : Obligations.DecodedOperandsAreTheFields := by
  intro v i hd
  obtain ⟨hf, -⟩ := (decode_eq_ok_iff v i).1 hd
  exact hf

theorem word_and_full (v : Word) : v &&& 0xFFFFFFFF#32 = v := BitVec.and_allOnes

/-- Settles O3: of the 13 rows by which a word can decode, one builds the mnemonic. -/
theorem maskAndMatchSelectTheMnemonic : Obligations.MaskAndMatchSelectTheMnemonic := by
  intro v
  simp [decode_eq_ok_iff_row, opcodeRows, rowMatches, word_and_full]

section Issue

variable {s : State} {v : Word}

/-- Issue rejects an illegal word while BUSY = 0 (R183). -/
theorem issue_illegal (hb : s.busy = false) (hv : illegal v) : issue v s = rejected .illegalCmd s := by
  obtain ⟨e, he⟩ := (decode_eq_error_iff v).2 hv
  simp only [issue, hb, he]
  rfl

/-- Issue rejects a command outside its domain while BUSY = 0 (R183). -/
theorem issue_outOfDomain {i : Instr} {code : ErrCode} (hb : s.busy = false) (hd : decode v = .ok i)
    (hc : domainError i = some code) : issue v s = rejected code s := by
  simp only [issue, hb, hd, hc]
  rfl

end Issue

/-- Settles O5, by what the decoder refuses. -/
theorem illegalWordsAreExactlyThose : Obligations.IllegalWordsAreExactlyThose :=
  ⟨decode_eq_error_iff, fun _ _ hv hb => issue_illegal hb hv, .inl rfl⟩

/-- Settles O6: the operands fit their fields, so the words decode (O1), and the domain check is Issue's. -/
theorem outOfDomainOperandsRaiseAtIssue : Obligations.OutOfDomainOperandsRaiseAtIssue := by
  intro s p q hp hq hb
  have haddrc := decodeOfEncodeIsTheCommand (.addrc p) (by simp [Instr.wf, fitsNibble, hp])
  have hkeyexp := decodeOfEncodeIsTheCommand (.keyexp p) (by simp [Instr.wf, fitsNibble, hp])
  have hsubrng := decodeOfEncodeIsTheCommand (.subrng p q) (by simp [Instr.wf, fitsNibble, hp, hq])
  refine ⟨haddrc, hkeyexp, hsubrng, fun h => ?round, fun h => ?range⟩
  case round =>
    have hround : ¬p < 10 := by omega
    exact ⟨issue_outOfDomain hb haddrc (by simp [domainError, roundIndex, hround]),
      issue_outOfDomain hb hkeyexp (by simp [domainError, roundIndex, hround])⟩
  case range =>
    have hrange : ¬p < q := by omega
    exact issue_outOfDomain hb hsubrng (by simp [domainError, rangeLegal, hrange])

theorem workedWords_encode : ∀ x ∈ workedWords, x.1.wf = true ∧ encode x.1 = x.2 := by decide

/-- Settles O7: the listed words are the commands' encodings, which decode back (O1). -/
theorem workedWordsDecodeAsListed : Obligations.WorkedWordsDecodeAsListed := by
  refine ⟨fun x hx => ?_, rfl, rfl⟩
  obtain ⟨hwf, hword⟩ := workedWords_encode x hx
  exact ⟨hword ▸ decodeOfEncodeIsTheCommand x.1 hwf, hword⟩

end Sys2Proof.Proofs

/-! ### The assembler

Each operand form assembles exactly the operands that fit it; the command it spells is read off the table of mnemonics. -/

namespace Sys2Proof.Proofs

open Sys2Proof Sys2Proof.Machine Sys2Proof.Laws Sys2Proof.Spec

section Operands

theorem asmByte_eq_ok_iff (n : Nat) (a : Byte) : asmByte n = .ok a ↔ n = a.toNat := by
  unfold asmByte
  split_ifs with h
  · rw [Except.ok.injEq, BitVec.toNat_eq, BitVec.toNat_ofNat, Nat.mod_eq_of_lt h]
  · simp only [false_iff]
    exact fun e => h (e ▸ a.isLt)

theorem asmNibble_eq_ok_iff (n p : Nat) : asmNibble n = .ok p ↔ fitsNibble p = true ∧ n = p := by
  unfold asmNibble
  split_ifs with h
  · simp only [Except.ok.injEq]
    exact ⟨fun e => ⟨e ▸ h, e⟩, fun e => e.2⟩
  · simp only [false_iff]
    rintro ⟨hp, rfl⟩
    exact h hp

theorem asmByte_tooLarge {n : Nat} (h : 256 ≤ n) : asmByte n = .error .operandTooLarge := if_neg (by omega)

theorem asmNibble_tooLarge {n : Nat} (h : 16 ≤ n) : asmNibble n = .error .operandTooLarge :=
  if_neg (by simpa [fitsNibble] using h)

theorem asmWord_tooLarge {n : Nat} (h : 2 ^ 32 ≤ n) : asmWord n = .error .operandTooLarge := if_neg (by omega)

/-- The one error of a byte operand. -/
theorem asmByte_cases (n : Nat) : (∃ a, asmByte n = .ok a) ∨ asmByte n = .error .operandTooLarge := by
  by_cases h : n < 256
  · exact .inl ⟨_, if_pos h⟩
  · exact .inr (if_neg h)

/-- The one error of a 4-bit operand. -/
theorem asmNibble_cases (n : Nat) : (∃ p, asmNibble n = .ok p) ∨ asmNibble n = .error .operandTooLarge := by
  by_cases h : fitsNibble n = true
  · exact .inl ⟨_, if_pos h⟩
  · exact .inr (if_neg h)

theorem asmNoOperand_eq_ok_iff (c i : Instr) (ops : List Nat) : asmNoOperand c ops = .ok i ↔ ops = [] ∧ c = i := by
  cases ops <;> simp [asmNoOperand]

theorem except_map_eq_ok_iff {ε α β : Type} (f : α → β) (x : Except ε α) (b : β) :
    x.map f = .ok b ↔ ∃ a, x = .ok a ∧ f a = b := by
  cases x <;> simp [Except.map]

theorem asmOneByte_eq_ok_iff (f : Byte → Instr) (ops : List Nat) (i : Instr) :
    asmOneByte f ops = .ok i ↔ ∃ a, ops = [a.toNat] ∧ f a = i := by
  match ops with
  | [n] => simp [asmOneByte, except_map_eq_ok_iff, asmByte_eq_ok_iff]
  | [] | _ :: _ :: _ => simp [asmOneByte]

theorem asmOneNibble_eq_ok_iff (f : Nat → Instr) (ops : List Nat) (i : Instr) :
    asmOneNibble f ops = .ok i ↔ ∃ p, fitsNibble p = true ∧ ops = [p] ∧ f p = i := by
  match ops with
  | [n] => simp [asmOneNibble, except_map_eq_ok_iff, asmNibble_eq_ok_iff, and_assoc]
  | [] | _ :: _ :: _ => simp [asmOneNibble]

theorem asmTwoBytes_eq_ok_iff (f : Byte → Byte → Instr) (ops : List Nat) (i : Instr) :
    asmTwoBytes f ops = .ok i ↔ ∃ a b, ops = [a.toNat, b.toNat] ∧ f a b = i := by
  match ops with
  | [n, m] =>
    simp only [List.cons.injEq, and_true, ← asmByte_eq_ok_iff]
    rcases asmByte_cases n with ⟨a, ha⟩ | ha <;> rcases asmByte_cases m with ⟨b, hb⟩ | hb <;>
      simp [asmTwoBytes, ha, hb]
  | [] | [_] | _ :: _ :: _ :: _ => simp [asmTwoBytes]

theorem asmTwoNibbles_eq_ok_iff (f : Nat → Nat → Instr) (ops : List Nat) (i : Instr) :
    asmTwoNibbles f ops = .ok i ↔ ∃ p q, (fitsNibble p = true ∧ fitsNibble q = true) ∧ ops = [p, q] ∧ f p q = i := by
  match ops with
  | [n, m] =>
    cases hn : fitsNibble n <;> cases hm : fitsNibble m <;> simp [asmTwoNibbles, asmNibble, hn, hm]
  | [] | [_] | _ :: _ :: _ :: _ => simp [asmTwoNibbles]

theorem asmTwoBytes_tooLarge (f : Byte → Byte → Instr) {a b : Nat} (h : 256 ≤ a ∨ 256 ≤ b) :
    asmTwoBytes f [a, b] = .error .operandTooLarge := by
  rcases h with h | h
  · simp only [asmTwoBytes, asmByte_tooLarge h]
  · rcases asmByte_cases a with ⟨x, hx⟩ | hx <;> simp only [asmTwoBytes, hx, asmByte_tooLarge h]

theorem asmTwoNibbles_tooLarge (f : Nat → Nat → Instr) {p q : Nat} (h : 16 ≤ p ∨ 16 ≤ q) :
    asmTwoNibbles f [p, q] = .error .operandTooLarge := by
  rcases h with h | h
  · simp only [asmTwoNibbles, asmNibble_tooLarge h]
  · rcases asmNibble_cases p with ⟨x, hx⟩ | hx <;> simp only [asmTwoNibbles, hx, asmNibble_tooLarge h]

theorem asmBlock_tooLarge {bytes : List Nat} (h : ∃ b ∈ bytes, 256 ≤ b) :
    asmBlock bytes = .error .operandTooLarge := by
  obtain ⟨b, hb, hlarge⟩ := h
  have hall : ¬bytes.all (fun n => n < 256) = true := fun e => by
    have hsmall : b < 256 := of_decide_eq_true (List.all_eq_true.1 e b hb)
    omega
  exact if_neg hall

end Operands

theorem mnemonicTable_nodup : (mnemonicTable.map Prod.fst).Nodup := by decide

/-- A mnemonic with its operands assembles by the mnemonic's own row: no two rows have the same mnemonic (R72, R82). -/
theorem asmCommand_eq_ok_iff_row (m : Token) (ops : List Nat) (i : Instr) :
    asmCommand m ops = .ok i ↔ ∃ row ∈ mnemonicTable, row.1 = m ∧ row.2 ops = .ok i := by
  have hfind := find?_eq_some_iff_of_key (p := fun row => row.1 == m) (k := m) mnemonicTable_nodup
    fun row _ h => eq_of_beq h
  have hlookup : asmCommand m ops = .ok i ↔
      ∃ row, mnemonicTable.find? (fun row => row.1 == m) = some row ∧ row.2 ops = .ok i := by
    unfold asmCommand
    cases mnemonicTable.find? (fun row => row.1 == m) <;> simp
  simp only [hlookup, hfind, and_assoc, beq_iff_eq]

/-- A mnemonic with its operands assembles to exactly the well-formed command they spell (R82). -/
theorem asmCommand_eq_ok_iff (m : Token) (ops : List Nat) (i : Instr) :
    asmCommand m ops = .ok i ↔ i.wf = true ∧ spells m ops i := by
  rw [asmCommand_eq_ok_iff_row]
  simp only [mnemonicTable, List.exists_mem_cons_iff, eq_comm (b := m), asmTwoBytes_eq_ok_iff,
    asmOneByte_eq_ok_iff, asmTwoNibbles_eq_ok_iff, asmOneNibble_eq_ok_iff, asmNoOperand_eq_ok_iff]
  cases i with
  | subrng p q => simpa [Instr.wf, spells] using and_left_comm
  | addrc p => simpa [Instr.wf, spells] using and_left_comm
  | keyexp p => simpa [Instr.wf, spells] using and_left_comm
  | _ => simp [Instr.wf, spells]

/-- Settles O55, by the operand forms of each mnemonic. -/
theorem assemblerNeverTruncates : Obligations.AssemblerNeverTruncates := by
  refine ⟨asmCommand_eq_ok_iff, fun m ops l => ?_, fun i hi => ⟨fieldsOf_encode hi, not_illegal_encode i⟩,
    fun a b => asmTwoBytes_tooLarge .gmul, fun a h => ?_, fun p q => asmTwoNibbles_tooLarge .subrng,
    fun p h => ⟨?_, ?_⟩, fun r v h => ?_, fun bytes h => ⟨?_, ?_⟩⟩
  · simp only [expandLine, except_map_eq_ok_iff, asmCommand_eq_ok_iff, and_assoc, eq_comm (a := l)]
  · exact congrArg (Except.map Instr.sbyte) (asmByte_tooLarge h)
  · exact congrArg (Except.map Instr.addrc) (asmNibble_tooLarge h)
  · exact congrArg (Except.map Instr.keyexp) (asmNibble_tooLarge h)
  · simp only [expandLine, asmWord_tooLarge h, Except.map]
  · simp only [expandLine, asmBlock_tooLarge h, Except.map]
  · simp only [expandLine, asmBlock_tooLarge h, Except.map]

/-! ### The pseudo-instructions -/

theorem currentWord_status (s : State) : currentWord s 0x01 = statusWord s := (statusWord_eq_sum s).symm

/-- The sixteen bytes of a block assemble to the block (R13, R83). -/
theorem asmBlock_get (x : Block) : asmBlock ((List.finRange 16).map fun i => (x.get i).toNat) = .ok x := by
  have hall : ((List.finRange 16).map fun i => (x.get i).toNat).all (fun n => n < 256) = true := by
    rw [List.all_map, List.all_eq_true]
    exact fun i _ => decide_eq_true (x.get i).isLt
  have hbytes : List.finRange 16 = [0, 1, 2, 3, 4, 5, 6, 7, 8, 9, 10, 11, 12, 13, 14, 15] := rfl
  unfold asmBlock
  rw [if_pos hall]
  simp only [hbytes, List.map_cons, List.map_nil, BitVec.ofNat_toNat, BitVec.setWidth_eq]
  rfl

theorem loadBlock_eq_map (reg : Fin 4 → RegName) (x : Block) :
    loadBlock reg x = (List.finRange 4).map fun j => .write (regAddr (reg j)) (blockWord x j.val) := by
  simp only [← pack_col_eq_blockWord]
  rfl

/-- Settles O56: a poll of WAIT is a STATUS read, and the blocks are loaded and read column by column. -/
theorem pseudoInstructionsExpand : Obligations.PseudoInstructionsExpand := by
  refine ⟨rfl, fun s => ⟨_, rfl, hostPoll_host s, ?_, ?_⟩, rfl, rfl, fun x => ⟨?_, ?_⟩, rfl, rfl, fun k => rfl,
    fun m ops i h => ?_⟩
  · rw [hostPoll_eq, currentWord_status]
    split <;> rfl
  · rw [hostPoll_eq]
    split <;> rfl
  · rw [expandLine, asmBlock_get, Except.map, loadBlock_eq_map]
    rfl
  · rw [expandLine, asmBlock_get, Except.map, loadBlock_eq_map]
    rfl
  · rw [expandLine, h, Except.map]

/-! ### The reads of RD16 -/

section Rd16

variable {s : State} {reg : Fin 4 → RegName}

/-- What the Host has got back so far is no register: no word of the map shows it. -/
@[simp] theorem busPeek_recordRead (a : BusAddr) (r : ReadRecord) : busPeek a (s.recordRead r) = busPeek a s :=
  busPeek_congr rfl rfl rfl (fun _ => rfl) (fun _ _ => rfl) (fun _ _ => rfl)

theorem hostRead_outside_window {a : BusAddr} (h : ¬inBusyWindow s a) (name : Option Token) :
    hostRead a name s = s.recordRead ⟨a, busPeek a s, name⟩ := by
  rw [inBusyWindow_iff] at h
  simp only [hostRead, busRead, if_neg h]

/-- Reads outside the busy window record the current values of their words and do nothing else (R51, R66). -/
theorem performAll_reads (name : Option Token) (addrs : List BusAddr) (s : State)
    (h : ∀ a ∈ addrs, ¬inBusyWindow s a) :
    performAll (addrs.map fun a => .read a name) s =
      .next { s with reads := s.reads ++ addrs.map fun a => ⟨a, busPeek a s, name⟩ } := by
  induction addrs generalizing s with
  | nil => simp [performAll]
  | cons a rest ih =>
    obtain ⟨ha, hrest⟩ := List.forall_mem_cons.1 h
    simp only [List.map_cons, performAll, hostPerform, hostRead_outside_window ha, ih (s.recordRead _) hrest,
      busPeek_recordRead, recordRead_reads, List.append_assoc]
    rfl

/-- RD16 outside the busy window records the current values of its four words, and does nothing else (R83). -/
theorem performAll_readBlock (h : ∀ j, ¬inBusyWindow s (regAddr (reg j))) (name : Option Token) :
    performAll (readBlock reg name) s = .next { s with reads := s.reads ++
      [⟨regAddr (reg 0), busPeek (regAddr (reg 0)) s, name⟩, ⟨regAddr (reg 1), busPeek (regAddr (reg 1)) s, name⟩,
        ⟨regAddr (reg 2), busPeek (regAddr (reg 2)) s, name⟩, ⟨regAddr (reg 3), busPeek (regAddr (reg 3)) s, name⟩] } :=
  performAll_reads name [regAddr (reg 0), regAddr (reg 1), regAddr (reg 2), regAddr (reg 3)] s (by simp [h])

/-- RD16 gets the block whose columns the four words show. -/
theorem rd16_gets_block {x : Block} (hx : ∀ j, busPeek (regAddr (reg j)) s = pack (x.col j))
    (h : ∀ j, ¬inBusyWindow s (regAddr (reg j))) (name : Option Token) :
    ∃ t, performAll (readBlock reg name) s = .next t ∧ rd16Bytes reg t.reads = some x ∧
      (∀ n, name = some n → rd16Named reg n t.reads = some x) ∧ { t with reads := s.reads } = s := by
  have hcols : (⟨unpack (pack (x.col 0)), unpack (pack (x.col 1)), unpack (pack (x.col 2)), unpack (pack (x.col 3))⟩ : Block)
      = x := by
    simp only [unpack_pack]
    rfl
  refine ⟨_, performAll_readBlock h name, ?_, ?_, rfl⟩
  · simp only [hx, rd16Bytes_append, hcols]
  · rintro n rfl
    simp only [hx, rd16Named_append, hcols]

end Rd16

/-- Settles O57, by the word each register's address shows. -/
theorem rd16GetsTheSixteenBytes : Obligations.Rd16GetsTheSixteenBytes := by
  refine fun s name => ⟨fun h => ?_, fun h => ?_, fun i h => ?_⟩
  · exact ⟨_, (rd16_gets_block (busPeek_regAddr_st s) h name).imp fun t ht => ⟨rfl, ht⟩⟩
  · exact ⟨_, (rd16_gets_block (busPeek_regAddr_ky s) h name).imp fun t ht => ⟨rfl, ht⟩⟩
  · exact ⟨_, (rd16_gets_block (busPeek_regAddr_ks s i) h name).imp fun t ht => ⟨rfl, ht⟩⟩

end Sys2Proof.Proofs

/-! ### GF(2^8)

A byte stands for its residue in the ring GF(2)[x] / (x^8+x^4+x^3+x+1) (R90). Different bytes have different residues,
XOR is addition and `gmul` is multiplication there, so the laws of `gmul` are those of the ring. -/

namespace Sys2Proof.Proofs

open Sys2Proof Sys2Proof.Machine Sys2Proof.Laws Sys2Proof.Spec

/-! #### The written-out product -/

theorem getLsbD_seven_iff (a : Byte) : a.getLsbD 7 = true ↔ ¬a.toNat < 128 := by
  have hmsb : a.msb = a.getLsbD 7 := a.msb_eq_getLsbD_last
  rw [← hmsb, BitVec.msb_eq_true_iff_two_mul_ge]
  omega

/-- The doubling of the written-out product is `xtime`. -/
theorem doubled_succ (a : Byte) (n : Nat) : doubled a (n + 1) = xtime (doubled a n) := by
  simp only [doubled, xtime, getLsbD_seven_iff, ite_not, apply_ite (doubled a n <<< 1 ^^^ ·)]
  congr 1
  exact BitVec.xor_zero.symm

theorem doubled_eq_iterate (a : Byte) (n : Nat) : doubled a n = xtime^[n] a := by
  induction n with
  | zero => rfl
  | succ n ih => rw [doubled_succ, ih, Function.iterate_succ_apply']

theorem doubled_xtime (a : Byte) (n : Nat) : doubled (xtime a) n = doubled a (n + 1) := by
  rw [doubled_eq_iterate, doubled_eq_iterate, Function.iterate_succ_apply]

/-- The peasant loop XORs the doubled `a` of each set bit of `b` into its accumulator. -/
theorem gmulLoop_eq_foldl (n : Nat) (a b p : Byte) :
    gmulLoop n a b p =
      (List.range n).foldl (fun acc k => if b.getLsbD k then acc ^^^ doubled a k else acc) p := by
  induction n generalizing a b p with
  | zero => rfl
  | succ n ih =>
    simp only [gmulLoop, ih, List.range_succ_eq_map, List.foldl_cons, List.foldl_map, doubled_xtime,
      BitVec.getLsbD_ushiftRight, Nat.add_comm 1, doubled, Nat.succ_eq_add_one]

theorem gmul_eq_bitProduct (a b : Byte) : gmul a b = bitProduct a b := gmulLoop_eq_foldl 8 a b 0

/-- Settles O31: the peasant loop is the written-out product. -/
theorem gmulWritesTheProduct : Obligations.GmulWritesTheProduct :=
  fun a b s => ⟨s.setY (gmul a b), rfl, gmul_eq_bitProduct a b, rfl⟩

/-! #### Bytes as polynomials -/

theorem toPoly_zero : toPoly 0 = 0 := by simp [toPoly]

theorem toPoly_one : toPoly 1 = 1 := by simp [toPoly]

theorem toPoly_xor (a b : Byte) : toPoly (a ^^^ b) = toPoly a + toPoly b := by
  simp only [toPoly, ← Finset.sum_add_distrib, BitVec.getLsbD_xor]
  refine Finset.sum_congr rfl fun k _ => ?_
  cases a.getLsbD k <;> cases b.getLsbD k <;> simp [CharTwo.add_self_eq_zero]

theorem coeff_toPoly (a : Byte) {k : Nat} (hk : k < 8) : (toPoly a).coeff k = if a.getLsbD k then 1 else 0 := by
  have hother : ∀ j ∈ Finset.range 8, j ≠ k →
      (if a.getLsbD j then Polynomial.X ^ j else 0 : Polynomial (ZMod 2)).coeff k = 0 := by
    intro j _ hj
    split <;> simp [Polynomial.coeff_X_pow, hj.symm]
  rw [toPoly, Polynomial.finsetSum_coeff, Finset.sum_eq_single_of_mem k (Finset.mem_range.2 hk) hother]
  split <;> simp

theorem eq_zero_of_toPoly_eq_zero {a : Byte} (h : toPoly a = 0) : a = 0 := by
  refine BitVec.eq_of_getLsbD_eq fun k hk => ?_
  have hcoeff : 0 = if a.getLsbD k then (1 : ZMod 2) else 0 := by rw [← coeff_toPoly a hk, h, Polynomial.coeff_zero]
  have hbit : a.getLsbD k = false := by simpa [-BitVec.getLsbD_eq_getElem] using hcoeff
  exact hbit.trans BitVec.getLsbD_zero.symm

theorem degree_toPoly_lt (a : Byte) : (toPoly a).degree < 8 := by
  refine (Polynomial.degree_sum_le _ _).trans_lt ((Finset.sup_lt_iff (WithBot.bot_lt_coe 8)).2 fun k hk => ?_)
  split
  · rw [Polynomial.degree_X_pow]
    exact_mod_cast Finset.mem_range.1 hk
  · exact WithBot.bot_lt_coe 8

theorem degree_reductionPoly : reductionPoly.degree = 8 := by
  unfold reductionPoly
  compute_degree!

theorem toPoly_shiftLeft_one (a : Byte) :
    toPoly (a <<< 1) = ∑ k ∈ Finset.range 7, if a.getLsbD k then Polynomial.X ^ (k + 1) else 0 := by
  have hzero : (a <<< 1).getLsbD 0 = false := by simp
  have hsucc : ∀ k ∈ Finset.range 7, (a <<< 1).getLsbD (k + 1) = a.getLsbD k := by
    intro k hk
    have hlt : k + 1 < 8 := Nat.succ_lt_succ (Finset.mem_range.1 hk)
    simp [BitVec.getLsbD_shiftLeft, hlt, -BitVec.getLsbD_eq_getElem]
  rw [toPoly, Finset.sum_range_succ', hzero, if_neg Bool.false_ne_true, add_zero]
  exact Finset.sum_congr rfl fun k hk => by rw [hsucc k hk]

/-- Times x is a shift, but for bit 7, which a byte has no room for. -/
theorem X_mul_toPoly (a : Byte) :
    Polynomial.X * toPoly a = toPoly (a <<< 1) + if a.getLsbD 7 then Polynomial.X ^ 8 else 0 := by
  rw [toPoly_shiftLeft_one, toPoly, Finset.sum_range_succ, mul_add, Finset.mul_sum]
  simp only [mul_ite, mul_zero, pow_succ']

theorem X_pow_eight_sub_toPoly : Polynomial.X ^ 8 - toPoly 0x1B = reductionPoly := by
  have hpoly : toPoly 0x1B = 1 + Polynomial.X + Polynomial.X ^ 3 + Polynomial.X ^ 4 := by
    simp [toPoly, Finset.sum_range_succ]
  rw [CharTwo.sub_eq_add, hpoly, reductionPoly]
  ring

/-! #### Residues -/

/-- The residue of a byte modulo the reduction polynomial; `AdjoinRoot.root` is the residue of x. -/
noncomputable def residue (a : Byte) : AdjoinRoot reductionPoly := AdjoinRoot.mk reductionPoly (toPoly a)

theorem residue_zero : residue 0 = 0 := by rw [residue, toPoly_zero, map_zero]

theorem residue_one : residue 1 = 1 := by rw [residue, toPoly_one, map_one]

@[simp] theorem residue_xor (a b : Byte) : residue (a ^^^ b) = residue a + residue b := by
  rw [residue, toPoly_xor, map_add, residue, residue]

/-- A byte's degree is below that of the reduction polynomial, so its residue determines it. -/
theorem residue_injective : Function.Injective residue := by
  intro a b h
  have hdvd : reductionPoly ∣ toPoly (a ^^^ b) := by
    rw [toPoly_xor, ← CharTwo.sub_eq_add]
    exact AdjoinRoot.mk_eq_mk.1 h
  have hzero : toPoly (a ^^^ b) = 0 :=
    Polynomial.eq_zero_of_dvd_of_degree_lt hdvd (degree_reductionPoly ▸ degree_toPoly_lt _)
  exact BitVec.xor_eq_zero_iff.1 (eq_zero_of_toPoly_eq_zero hzero)

theorem root_pow_eight : AdjoinRoot.root reductionPoly ^ 8 = residue 0x1B := by
  rw [← AdjoinRoot.mk_X, ← map_pow]
  exact AdjoinRoot.mk_eq_mk.2 (X_pow_eight_sub_toPoly ▸ dvd_rfl)

@[simp] theorem residue_xtime (a : Byte) : residue (xtime a) = AdjoinRoot.root reductionPoly * residue a := by
  have hmul : AdjoinRoot.root reductionPoly * residue a =
      residue (a <<< 1) + if a.getLsbD 7 then AdjoinRoot.root reductionPoly ^ 8 else 0 := by
    rw [residue, ← AdjoinRoot.mk_X, ← map_mul, X_mul_toPoly, map_add, residue, apply_ite (AdjoinRoot.mk _), map_pow,
      map_zero]
  rw [hmul, root_pow_eight, xtime, residue_xor, apply_ite residue]
  exact congrArg (residue (a <<< 1) + if a.getLsbD 7 then residue 0x1B else ·) residue_zero

theorem residue_doubled (a : Byte) (n : Nat) :
    residue (doubled a n) = AdjoinRoot.root reductionPoly ^ n * residue a := by
  induction n with
  | zero => rw [doubled, pow_zero, one_mul]
  | succ n ih => rw [doubled_succ, residue_xtime, ih, pow_succ', mul_assoc]

theorem residue_eq_sum (b : Byte) :
    residue b = ∑ k ∈ Finset.range 8, if b.getLsbD k then AdjoinRoot.root reductionPoly ^ k else 0 := by
  simp only [residue, toPoly, map_sum, apply_ite (AdjoinRoot.mk reductionPoly), map_pow, AdjoinRoot.mk_X, map_zero]

theorem residue_foldl_doubled (a b : Byte) (n : Nat) :
    residue ((List.range n).foldl (fun acc k => if b.getLsbD k then acc ^^^ doubled a k else acc) 0) =
      residue a * ∑ k ∈ Finset.range n, if b.getLsbD k then AdjoinRoot.root reductionPoly ^ k else 0 := by
  induction n with
  | zero => simpa using residue_zero
  | succ n ih =>
    rw [List.range_succ, List.foldl_append, Finset.sum_range_succ, mul_add, ← ih]
    cases hbit : b.getLsbD n with
    | false => simp [hbit]
    | true => simp [hbit, residue_doubled, mul_comm]

@[simp] theorem residue_gmul (a b : Byte) : residue (gmul a b) = residue a * residue b := by
  rw [gmul_eq_bitProduct, bitProduct, residue_foldl_doubled, ← residue_eq_sum]

/-- Settles O32: the product of the residues is the residue of the product. -/
theorem gmulIsMultiplicationModuloThePolynomial : Obligations.GmulIsMultiplicationModuloThePolynomial := by
  intro a b
  refine AdjoinRoot.mk_eq_mk.1 ?_
  rw [map_mul]
  exact (residue_gmul a b).symm

/-! #### The laws of the ring -/

theorem gmul_comm (a b : Byte) : gmul a b = gmul b a :=
  residue_injective (by simp [mul_comm])

theorem gmul_zero (a : Byte) : gmul a 0 = 0 :=
  residue_injective (by rw [residue_gmul, residue_zero, mul_zero])

theorem gmul_one (a : Byte) : gmul a 1 = a :=
  residue_injective (by rw [residue_gmul, residue_one, mul_one])

theorem gmul_assoc (a b c : Byte) : gmul (gmul a b) c = gmul a (gmul b c) :=
  residue_injective (by simp [mul_assoc])

theorem gmul_xor (a b c : Byte) : gmul a (b ^^^ c) = gmul a b ^^^ gmul a c :=
  residue_injective (by simp [mul_add])

theorem gmul_xtime (a b : Byte) : gmul a (xtime b) = xtime (gmul a b) :=
  residue_injective (by simp [mul_left_comm])

theorem gmul_two (a : Byte) : gmul a 2 = xtime a := by
  have htwo : (2 : Byte) = xtime 1 := rfl
  rw [htwo, gmul_xtime, gmul_one]

theorem gmul_three (a : Byte) : gmul a 3 = xtime a ^^^ a := by
  have hthree : (3 : Byte) = 2 ^^^ 1 := rfl
  rw [hthree, gmul_xor, gmul_two, gmul_one]

/-- Settles O33: the residues obey the laws, and different bytes have different residues. -/
theorem gmulLaws : Obligations.GmulLaws :=
  fun a b c => ⟨gmul_comm a b, gmul_zero a, gmul_one a, gmul_assoc a b c, gmul_xor a b c, gmul_two a, gmul_three a⟩

end Sys2Proof.Proofs

/-! ### The substitution engine

SubBytes is the affine map of R100 after the inverse in GF(2^8), so undoing the affine map on S(a) must give the inverse
of a. That is one check of the table, entry by entry; the rest follows from the ring. -/

namespace Sys2Proof.Proofs

open Sys2Proof Sys2Proof.Machine Sys2Proof.Laws Sys2Proof.Spec

/-! #### The S-box -/

/-- The inverse of the affine map of R100. -/
def affineInverse (b : Byte) : Byte := b.rotateLeft 1 ^^^ b.rotateLeft 3 ^^^ b.rotateLeft 6 ^^^ 0x05

theorem affine_affineInverse : ∀ b, affine (affineInverse b) = b := by decide

/-- The inverse of a byte in GF(2^8), and 0 for 0, as the S-box's entry gives it. -/
def byteInverse (a : Byte) : Byte := affineInverse (sbox a)

theorem affine_byteInverse (a : Byte) : affine (byteInverse a) = sbox a := affine_affineInverse (sbox a)

theorem byteInverse_zero : byteInverse 0 = 0 := by decide

theorem gmul_byteInverse : ∀ a, a ≠ 0 → gmul a (byteInverse a) = 1 := by decide

/-- Settles O34: `byteInverse` is the inverse that R100 names. -/
theorem sbyteWritesTheSubstitutedByte : Obligations.SbyteWritesTheSubstitutedByte := by
  intro a s
  refine ⟨s.setY (sbox a), byteInverse a, rfl, (affine_byteInverse a).symm, ?_, gmul_byteInverse a, rfl⟩
  rintro rfl
  exact byteInverse_zero

theorem byteInverse_eq_zero_iff (a : Byte) : byteInverse a = 0 ↔ a = 0 := by
  refine ⟨fun h => ?_, fun h => h ▸ byteInverse_zero⟩
  by_contra ha
  have hone : (0 : Byte) = 1 := by rw [← gmul_byteInverse a ha, h, gmul_zero]
  exact absurd hone (by decide)

/-- No byte is the inverse of two bytes. -/
theorem eq_of_gmul_eq_one {a b c : Byte} (ha : gmul a c = 1) (hb : gmul b c = 1) : a = b := by
  have hac : residue a * residue c = 1 := by rw [← residue_gmul, ha, residue_one]
  have hcb : residue c * residue b = 1 := by rw [mul_comm, ← residue_gmul, hb, residue_one]
  exact residue_injective (left_inv_eq_right_inv hac hcb)

theorem sbox_injective : Function.Injective sbox := by
  intro a b h
  have hinv : byteInverse a = byteInverse b := congrArg affineInverse h
  by_cases ha : a = 0
  · have hb : b = 0 := by rw [← byteInverse_eq_zero_iff, ← hinv, byteInverse_eq_zero_iff, ha]
    rw [ha, hb]
  · have hb : b ≠ 0 := by rwa [Ne, ← byteInverse_eq_zero_iff, ← hinv, byteInverse_eq_zero_iff]
    exact eq_of_gmul_eq_one (gmul_byteInverse a ha) (hinv ▸ gmul_byteInverse b hb)

theorem sbox_ne_self : ∀ x, sbox x ≠ x := by decide

/-- Settles O35: an entry determines the inverse of its byte, and the inverse the byte. -/
theorem sboxIsABijectionWithoutFixedPoint : Obligations.SboxIsABijectionWithoutFixedPoint :=
  ⟨Finite.injective_iff_bijective.1 sbox_injective, sbox_ne_self, rfl, rfl, rfl, rfl⟩

/-! #### SUBRNG, and the commands outside their domains -/

theorem subRange_get (p q : Nat) (x : Block) (i : Fin 16) :
    (subRange p q x).get i = if p ≤ i.val ∧ i.val ≤ q then sbox (x.get i) else x.get i :=
  block_get_ofFn _ i

/-- Settles O36: the range is legal, so the block is the substituted one. -/
theorem subrngSubstitutesItsRange : Obligations.SubrngSubstitutesItsRange :=
  fun p q s hpq hq =>
    ⟨_, exec_subrng_legal ((rangeLegal_iff p q).2 ⟨hpq, hq⟩) s, rfl, subRange_get p q s.st⟩

theorem rangeLegal_eq_false {p q : Nat} (h : ¬(p < q ∧ q < 16)) : rangeLegal p q = false := by
  rwa [← rangeLegal_iff, Bool.not_eq_true] at h

theorem roundIndex_eq_none {p : Nat} (h : 9 < p) : roundIndex p = none := dif_neg (Nat.not_lt.2 h)

theorem raiseError_eq_raised (code : ErrCode) (s : State) : raiseError code s = raised code s := rfl

/-- Settles O37: each command's own check fails, and raising an error is all that it then does. -/
theorem outOfDomainCommandsOnlyRaise : Obligations.OutOfDomainCommandsOnlyRaise := by
  intro p q s
  simp only [← raiseError_eq_raised]
  exact ⟨fun h => exec_subrng_illegal (rangeLegal_eq_false h) s, fun h => exec_addrc_noRound (roundIndex_eq_none h) s,
    fun h => exec_keyexp_noRound (roundIndex_eq_none h) s⟩

end Sys2Proof.Proofs

/-! ### The key schedule

The recurrence of R121 as an equation per column of a round key and per entry of the table. The unrolled recurrence
follows by induction on the column, and the law of the KEYEXP sequence by induction on the entry. -/

namespace Sys2Proof.Proofs

open Sys2Proof Sys2Proof.Machine Sys2Proof.Laws Sys2Proof.Spec

/-! #### Command lists -/

/-- A command list that completes, and then another. -/
theorem execAll_append {front : List Instr} {s t : State} (rest : List Instr) (h : execAll front s = .next t) :
    execAll (front ++ rest) s = execAll rest t := by
  induction front generalizing s with
  | nil =>
    obtain rfl : s = t := by simpa using h
    rfl
  | cons i front ih =>
    obtain ⟨u, hu, -⟩ := exec_cases i s
    rw [execAll_cons front hu] at h
    rw [List.cons_append, execAll_cons _ hu, ih h]

/-! #### The word register -/

@[simp] theorem rotWord_get (w : Quad) (i : Fin 4) : (rotWord w).get i = w.get (i + 1) := by
  revert i; exact forall_fin4.2 ⟨rfl, rfl, rfl, rfl⟩

/-- R122: on the bus word, ROTW is a rotation by 8 bits. -/
theorem pack_rotWord (w : Quad) : pack (rotWord w) = (pack w).rotateLeft 8 := by
  refine BitVec.eq_of_getLsbD_eq fun i hi => ?_
  rw [BitVec.getLsbD_rotateLeft]
  by_cases hlow : i < 8
  · have htop : ¬24 + i < 8 ∧ ¬24 + i < 16 ∧ ¬24 + i < 24 ∧ 24 + i < 32 := by omega
    simp [pack_getLsbD, rotWord, hlow, htop, -BitVec.getLsbD_eq_getElem]
  · have hsub (n : Nat) : i - 8 < n ↔ i < n + 8 := by omega
    simp [pack_getLsbD, rotWord, hlow, hi, hsub, Nat.sub_sub, -BitVec.getLsbD_eq_getElem]

theorem exec_rotw (s : State) : exec .rotw s = .next (s.setW (rotWord s.w)) := rfl

/-- Settles O38, by the rotation of the bytes and of the bus word. -/
theorem rotwRotatesTheWord : Obligations.RotwRotatesTheWord :=
  fun s => ⟨⟨_, exec_rotw s, rfl, rotWord_get s.w, pack_rotWord s.w⟩, rfl⟩

@[simp] theorem subWord_get (w : Quad) (i : Fin 4) : (subWord w).get i = sbox (w.get i) := quad_get_map sbox w i

theorem exec_subw (s : State) : exec .subw s = .next (s.setW (subWord s.w)) := rfl

/-- Settles O39, by the bytes of SubWord. -/
theorem subwSubstitutesEachByte : Obligations.SubwSubstitutesEachByte :=
  fun s => ⟨_, exec_subw s, rfl, subWord_get s.w⟩

/-! #### Round constants -/

/-- R120: the round constants are the powers of 2. -/
theorem rcon_eq_doubled : ∀ r : Fin 10, rcon r = doubled 0x01 r.val := by decide

theorem addRcon_get (w : Quad) (r : Fin 10) (i : Fin 4) :
    (addRcon w r).get i = w.get i ^^^ if i = 0 then doubled 0x01 r.val else 0 := by
  rw [← rcon_eq_doubled]
  revert i
  exact forall_fin4.2 ⟨rfl, BitVec.xor_zero.symm, BitVec.xor_zero.symm, BitVec.xor_zero.symm⟩

theorem addRcon_addRcon (w : Quad) (r : Fin 10) : addRcon (addRcon w r) r = w :=
  quad_ext fun i => by rw [addRcon_get, addRcon_get, BitVec.xor_assoc, BitVec.xor_self, BitVec.xor_zero]

theorem roundIndex_val (r : Fin 10) : roundIndex r.val = some r := dif_pos r.isLt

theorem exec_addrc (r : Fin 10) (s : State) : exec (.addrc r.val) s = .next (s.setW (addRcon s.w r)) :=
  exec_addrc_round (roundIndex_val r) s

theorem execAll_addrc_twice (r : Fin 10) (s : State) : execAll [.addrc r.val, .addrc r.val] s = .next s := by
  rw [execAll_cons _ (exec_addrc r s), execAll_cons _ (exec_addrc r _), setW_w, addRcon_addRcon]
  rfl

/-- Settles O40: the round constant goes into byte 0 and no other, and XOR undoes itself. -/
theorem addrcXorsTheRoundConstant : Obligations.AddrcXorsTheRoundConstant := by
  intro p s hp
  obtain ⟨r, rfl⟩ : ∃ r : Fin 10, r.val = p := ⟨⟨p, by omega⟩, rfl⟩
  refine ⟨⟨_, exec_addrc r s, rfl, addRcon_get s.w r 0, fun i hi => ?_⟩, execAll_addrc_twice r s⟩
  rw [setW_w, addRcon_get, if_neg hi]
  exact BitVec.xor_zero

/-! #### The key step -/

theorem gValue_get (r : Fin 10) (k : Block) (i : Fin 4) : (gValue r k).get i = gByte r.val k i := by
  rw [gValue, addRcon_get, subWord_get, rotWord_get, gByte, block_get_byteIndex]
  rfl

/-- R121: the first column of the next key. -/
theorem expandKey_col_zero (r : Fin 10) (k : Block) : (expandKey r k).col 0 = (k.col 0).xor (gValue r k) := rfl

/-- R121: each later column, from the preceding column of the next key. -/
theorem expandKey_col_succ (r : Fin 10) (k : Block) (c : Fin 3) :
    (expandKey r k).col c.succ = ((expandKey r k).col c.castSucc).xor (k.col c.succ) := by
  match c with
  | 0 | 1 | 2 => rfl

theorem columnSum_zero (k : Block) (i : Fin 4) : columnSum k i 0 = k.get (byteIndex i 0) := BitVec.zero_xor

theorem columnSum_succ (k : Block) (i : Fin 4) (c : Fin 3) :
    columnSum k i c.succ = columnSum k i c.castSucc ^^^ k.get (byteIndex i c.succ) := by
  have hc : Fin.ofNat 4 (c.val + 1) = c.succ := Fin.ext (Nat.mod_eq_of_lt c.succ.isLt)
  rw [columnSum, Fin.val_succ, List.range_succ, List.foldl_append, columnSum, Fin.val_castSucc, List.foldl_cons,
    List.foldl_nil, hc]

/-- The recurrence unrolled (R121): column by column, the g-value and the columns so far. -/
theorem isNextKey_expandKey (r : Fin 10) (k : Block) : isNextKey r.val k (expandKey r k) := by
  intro i c
  rw [block_get_byteIndex]
  induction c using Fin.induction with
  | zero =>
    rw [expandKey_col_zero, quad_get_xor, gValue_get, columnSum_zero, block_get_byteIndex, BitVec.xor_comm]
  | succ c ih =>
    rw [expandKey_col_succ, quad_get_xor, ih, columnSum_succ, block_get_byteIndex, BitVec.xor_assoc]

theorem exec_keyexp (r : Fin 10) (s : State) : exec (.keyexp r.val) s = .next (s.setKy (expandKey r s.ky)) :=
  exec_keyexp_round (roundIndex_val r) s

/-- Settles O41, by the unrolled recurrence. -/
theorem keyexpMakesTheNextRoundKey : Obligations.KeyexpMakesTheNextRoundKey := by
  intro p s hp
  obtain ⟨r, rfl⟩ : ∃ r : Fin 10, r.val = p := ⟨⟨p, by omega⟩, rfl⟩
  exact ⟨_, exec_keyexp r s, rfl, isNextKey_expandKey r s.ky⟩

/-! #### The table -/

/-- R127: entry 0 is the key. -/
theorem keySchedule_get_zero (k : Block) : (keySchedule k).get 0 = k := rfl

/-- R127: each later entry is the key step of the preceding one. -/
theorem keySchedule_get_succ (k : Block) (i : Fin 10) :
    (keySchedule k).get i.succ = expandKey i ((keySchedule k).get i.castSucc) := by
  match i with
  | 0 | 1 | 2 | 3 | 4 | 5 | 6 | 7 | 8 | 9 => rfl

theorem isNextKey_keySchedule (k : Block) (i : Fin 10) :
    isNextKey i.val ((keySchedule k).get i.castSucc) ((keySchedule k).get i.succ) :=
  keySchedule_get_succ k i ▸ isNextKey_expandKey i _

theorem exec_keysched (s : State) : exec .keysched s = .next (s.setKs (keySchedule s.ky)) := rfl

/-- Settles O42, by the laws of the table. -/
theorem keyschedFillsTheTable : Obligations.KeyschedFillsTheTable :=
  fun s => ⟨_, exec_keysched s, rfl, keySchedule_get_zero s.ky, isNextKey_keySchedule s.ky⟩

/-- KEYEXP 0 to KEYEXP n-1 step KY through the table of the old KY. -/
theorem execAll_keyexp_range (s : State) (n : Fin 11) :
    execAll ((List.range n.val).map .keyexp) s = .next (s.setKy ((keySchedule s.ky).get n)) := by
  induction n using Fin.induction with
  | zero => rfl
  | succ i ih =>
    rw [Fin.val_castSucc] at ih
    rw [Fin.val_succ, List.range_succ, List.map_append, execAll_append _ ih, List.map_singleton,
      execAll_cons _ (exec_keyexp i _), setKy_ky, ← keySchedule_get_succ]
    rfl

/-- Settles O43, by induction on the entry. -/
theorem keyexpStepsThroughTheTable : Obligations.KeyexpStepsThroughTheTable :=
  fun s n => ⟨_, _, execAll_keyexp_range s n, exec_keysched s, rfl, rfl⟩

end Sys2Proof.Proofs

/-! ### The state transforms

Each transform of R142 as an equation per byte or per column. MixColumns rests on the matrix being circulant and on the
laws of `gmul`. -/

namespace Sys2Proof.Proofs

open Sys2Proof Sys2Proof.Machine Sys2Proof.Laws Sys2Proof.Spec

/-! #### ShiftRows -/

@[simp] theorem shiftRows_get (x : Block) (i : Fin 16) : (shiftRows x).get i = x.get (shiftRowsSource i) :=
  block_get_ofFn _ i

theorem shiftRowsSource_byteIndex (r c : Fin 4) : shiftRowsSource (byteIndex r c) = byteIndex r (c + r) := by
  rw [shiftRowsSource, rowOf_byteIndex, colOf_byteIndex]

theorem shiftRowsSource_four_times :
    ∀ i, shiftRowsSource (shiftRowsSource (shiftRowsSource (shiftRowsSource i))) = i := by decide

theorem shiftRows_four_times (x : Block) : shiftRows (shiftRows (shiftRows (shiftRows x))) = x :=
  block_ext fun i => by simp only [shiftRows_get, shiftRowsSource_four_times]

theorem exec_shrows (s : State) : exec .shrows s = .next (s.setSt (shiftRows s.st)) := rfl

theorem execAll_shrows_four_times (s : State) : execAll [.shrows, .shrows, .shrows, .shrows] s = .next s := by
  simp only [execAll_cons _ (exec_shrows _), execAll_nil, setSt_st, shiftRows_four_times]
  rfl

/-- Settles O44: each row is read from its rotated columns, and the source index has order four. -/
theorem shrowsRotatesEachRow : Obligations.ShrowsRotatesEachRow :=
  fun s => ⟨⟨_, exec_shrows s, rfl, fun r c => by rw [setSt_st, shiftRows_get, shiftRowsSource_byteIndex]⟩,
    execAll_shrows_four_times s⟩

/-! #### MixColumns -/

theorem mixEntry_eq_sum (r : Fin 4) (a : Quad) :
    mixEntry r a = gmul (mixMatrix r 0) (a.get 0) ^^^ gmul (mixMatrix r 1) (a.get 1) ^^^ gmul (mixMatrix r 2) (a.get 2) ^^^
      gmul (mixMatrix r 3) (a.get 3) := rfl

/-- Each row of the matrix is the row above it, rotated (R141). -/
theorem mixMatrix_circulant :
    ∀ r, mixMatrix r r = 2 ∧ mixMatrix r (r + 1) = 3 ∧ mixMatrix r (r + 2) = 1 ∧ mixMatrix r (r + 3) = 1 := by decide

/-- An XOR over the four rows may begin at any row. -/
theorem xor_rows_from (f : Fin 4 → Byte) (r : Fin 4) :
    f 0 ^^^ f 1 ^^^ f 2 ^^^ f 3 = f r ^^^ f (r + 1) ^^^ f (r + 2) ^^^ f (r + 3) := by
  match r with
  | 0 => rfl
  | 1 => change _ = f 1 ^^^ f 2 ^^^ f 3 ^^^ f 0; ac_rfl
  | 2 => change _ = f 2 ^^^ f 3 ^^^ f 0 ^^^ f 1; ac_rfl
  | 3 => change _ = f 3 ^^^ f 0 ^^^ f 1 ^^^ f 2; ac_rfl

/-- The written-out row of R142. -/
theorem mixEntry_eq_doubled (r : Fin 4) (a : Quad) :
    mixEntry r a = doubled (a.get r) 1 ^^^ (doubled (a.get (r + 1)) 1 ^^^ a.get (r + 1)) ^^^ a.get (r + 2) ^^^
      a.get (r + 3) := by
  obtain ⟨htwo, hthree, hone, hone'⟩ := mixMatrix_circulant r
  have hdoubled (b : Byte) : doubled b 1 = xtime b := doubled_succ b 0
  rw [mixEntry_eq_sum, xor_rows_from (fun j => gmul (mixMatrix r j) (a.get j)) r, htwo, hthree, hone, hone']
  simp only [gmul_comm _ (a.get _), gmul_one, gmul_two, gmul_three, hdoubled]

theorem mixColumns_col (x : Block) (c : Fin 4) : (mixColumns x).col c = mixColumn (x.col c) := by
  revert c; exact forall_fin4.2 ⟨rfl, rfl, rfl, rfl⟩

@[simp] theorem mixColumn_get (a : Quad) (r : Fin 4) : (mixColumn a).get r = mixEntry r a := quad_get_ofFn _ r

theorem mixColumns_get_byteIndex (x : Block) (r c : Fin 4) : (mixColumns x).get (byteIndex r c) = mixByte x r c := by
  simp only [mixByte, block_get_byteIndex, mixColumns_col, mixColumn_get, mixEntry_eq_doubled]

theorem exec_mixcol (s : State) : exec .mixcol s = .next (s.setSt (mixColumns s.st)) := rfl

/-- Settles O45, by the written-out row. -/
theorem mixcolMultipliesEachColumn : Obligations.MixcolMultipliesEachColumn :=
  fun s => ⟨_, exec_mixcol s, rfl, mixColumns_get_byteIndex s.st⟩

/-! #### AddRoundKey, and the linearity of MixColumns -/

theorem addRoundKey_col (x k : Block) (c : Fin 4) : (addRoundKey x k).col c = (x.col c).xor (k.col c) := by
  revert c; exact forall_fin4.2 ⟨rfl, rfl, rfl, rfl⟩

@[simp] theorem addRoundKey_get (x k : Block) (i : Fin 16) : (addRoundKey x k).get i = x.get i ^^^ k.get i := by
  rw [Block.get, addRoundKey_col, quad_get_xor]; rfl

theorem addRoundKey_addRoundKey (x k : Block) : addRoundKey (addRoundKey x k) k = x :=
  block_ext fun i => by rw [addRoundKey_get, addRoundKey_get, BitVec.xor_assoc, BitVec.xor_self, BitVec.xor_zero]

theorem mixEntry_xor (r : Fin 4) (a b : Quad) : mixEntry r (a.xor b) = mixEntry r a ^^^ mixEntry r b := by
  simp only [mixEntry_eq_sum, quad_get_xor, gmul_xor]
  ac_rfl

theorem mixColumn_xor (a b : Quad) : mixColumn (a.xor b) = (mixColumn a).xor (mixColumn b) :=
  quad_ext fun r => by rw [quad_get_xor, mixColumn_get, mixColumn_get, mixColumn_get, mixEntry_xor]

/-- Settles O46: `gmul` distributes over XOR, so each column is linear. -/
theorem mixColumnsIsLinear : Obligations.MixColumnsIsLinear :=
  fun x y => block_ext_col fun c => by simp only [mixColumns_col, addRoundKey_col, mixColumn_xor]

theorem exec_addrk (s : State) : exec .addrk s = .next (s.setSt (addRoundKey s.st s.ky)) := rfl

theorem execAll_addrk_twice (s : State) : execAll [.addrk, .addrk] s = .next s := by
  simp only [execAll_cons _ (exec_addrk _), execAll_nil, setSt_st, setSt_ky, addRoundKey_addRoundKey]
  rfl

/-- Settles O47: KY stays, and XOR undoes itself. -/
theorem addrkXorsTheKey : Obligations.AddrkXorsTheKey :=
  fun s => ⟨⟨_, exec_addrk s, rfl, addRoundKey_get s.st s.ky⟩, execAll_addrk_twice s⟩

/-! #### SubState -/

theorem subState_col (x : Block) (c : Fin 4) : (subState x).col c = (x.col c).map sbox := by
  revert c; exact forall_fin4.2 ⟨rfl, rfl, rfl, rfl⟩

@[simp] theorem subState_get (x : Block) (i : Fin 16) : (subState x).get i = sbox (x.get i) := by
  rw [Block.get, subState_col, quad_get_map]; rfl

theorem subState_eq_subRange (x : Block) : subState x = subRange 0 15 x :=
  block_ext fun i => by rw [subState_get, subRange_get, if_pos (by omega)]

/-- R146: a permutation of the bytes and a map of each byte commute. -/
theorem subState_shiftRows (x : Block) : subState (shiftRows x) = shiftRows (subState x) :=
  block_ext fun i => by rw [subState_get, shiftRows_get, shiftRows_get, subState_get]

theorem exec_subst (s : State) : exec .subst s = .next (s.setSt (subState s.st)) := rfl

theorem exec_subst_eq_exec_subrng (s : State) : exec .subst s = exec (.subrng 0 15) s := by
  rw [exec_subst, exec_subrng_legal rfl, subState_eq_subRange]

theorem execAll_shrows_subst (s : State) : execAll [.shrows, .subst] s = execAll [.subst, .shrows] s := by
  simp only [execAll_cons _ (exec_shrows _), execAll_cons _ (exec_subst _), execAll_nil, setSt_st, subState_shiftRows]
  rfl

/-- Settles O48: the range 0 to 15 is every byte, and ShiftRows only moves bytes. -/
theorem substSubstitutesEveryByte : Obligations.SubstSubstitutesEveryByte :=
  fun s => ⟨⟨_, exec_subst s, rfl, subState_get s.st⟩, exec_subst_eq_exec_subrng s, execAll_shrows_subst s⟩

end Sys2Proof.Proofs

/-! ### The cipher pipeline

ENCRYPT's temporaries are followed twice: round by round down the stage table of R161, and command by command through
the sequence of R162, whose ST and KY are the working state and the working key. The command port adds nothing to what
a list of commands does: issue and completion touch no field that a command reads or writes. -/

namespace Sys2Proof.Proofs

open Sys2Proof Sys2Proof.Machine Sys2Proof.Laws Sys2Proof.Spec

theorem exec_encrypt (s : State) :
    exec .encrypt s = .next ((s.setSt (encryptBlock s.st s.ky).s).setKs (encryptBlock s.st s.ky).ks) := rfl

/-- Settles O51: the pipeline is a function of ST and KY. -/
theorem encryptDependsOnlyOnKeyAndBlock : Obligations.EncryptDependsOnlyOnKeyAndBlock :=
  fun s u hst hky => ⟨_, _, exec_encrypt s, exec_encrypt u, by simp [hst, hky], by simp [hst, hky]⟩

/-! #### The stage table -/

/-- The key steps of the rounds write the table of R126, entry by entry. -/
theorem encryptBlock_ks (plain key : Block) : (encryptBlock plain key).ks = keySchedule key := rfl

/-- R161: stages 1 to 9. -/
theorem stage_full (plain : Block) (ks : KeyTable) (r : Fin 9) :
    stage plain ks (r.val + 1) =
      addRoundKey (mixColumns (shiftRows (subState (stage plain ks r.val)))) (ks.get r.castSucc.succ) := by
  have hindex : Fin.ofNat 11 (r.val + 1) = r.castSucc.succ := Fin.ext (Nat.mod_eq_of_lt (by omega))
  rw [stage, if_neg (by omega), hindex]

/-- R161: stage 10 has no MixColumns. -/
theorem stage_final (plain : Block) (ks : KeyTable) :
    stage plain ks 10 = addRoundKey (shiftRows (subState (stage plain ks 9))) (ks.get 10) := rfl

/-- ENCRYPT's temporaries after stage `n`: the stage's state, and the round key that it added. -/
structure AtStage (plain key : Block) (n : Fin 11) (x : Working) : Prop where
  state_eq : x.s = stage plain (keySchedule key) n.val
  key_eq : x.ck = (keySchedule key).get n

section Stages

variable {plain key : Block} {x : Working}

theorem encryptStart_atStage (plain key : Block) : AtStage plain key 0 (encryptStart plain key) := ⟨rfl, rfl⟩

/-- The key step of a round, on the round key before it (R126). -/
theorem keyStep_of_scheduled (r : Fin 10) (hk : x.ck = (keySchedule key).get r.castSucc) :
    (keyStep r x).s = addRoundKey x.s ((keySchedule key).get r.succ) ∧
      (keyStep r x).ck = (keySchedule key).get r.succ := by
  have hkey : expandKey r x.ck = (keySchedule key).get r.succ := by rw [hk, keySchedule_get_succ]
  exact ⟨congrArg (addRoundKey x.s) hkey, hkey⟩

theorem fullRound_atStage (r : Fin 9) (hx : AtStage plain key r.castSucc.castSucc x) :
    AtStage plain key r.castSucc.succ (fullRound x r.castSucc) := by
  obtain ⟨hs, hk⟩ := hx
  obtain ⟨hstate, hkey⟩ :=
    keyStep_of_scheduled (x := { x with s := mixColumns (shiftRows (subState x.s)) }) r.castSucc hk
  refine ⟨hstate.trans ?_, hkey⟩
  rw [hs]
  exact (stage_full plain (keySchedule key) r).symm

theorem finalRound_atStage (hx : AtStage plain key 9 x) : AtStage plain key 10 (finalRound x) := by
  obtain ⟨hs, hk⟩ := hx
  obtain ⟨hstate, hkey⟩ := keyStep_of_scheduled (x := { x with s := shiftRows (subState x.s) }) 9 hk
  refine ⟨hstate.trans ?_, hkey⟩
  rw [hs]
  exact (stage_final plain (keySchedule key)).symm

end Stages

theorem fullRoundIndices_getElem? : ∀ r : Fin 9, fullRoundIndices[r.val]? = some r.castSucc := by decide

theorem foldl_fullRound_atStage (plain key : Block) (n : Fin 10) :
    AtStage plain key n.castSucc ((fullRoundIndices.take n.val).foldl fullRound (encryptStart plain key)) := by
  induction n using Fin.induction with
  | zero => exact encryptStart_atStage plain key
  | succ r ih =>
    rw [Fin.val_succ, List.take_add_one, fullRoundIndices_getElem?, List.foldl_append]
    exact fullRound_atStage r ih

theorem encryptBlock_atStage (plain key : Block) : AtStage plain key 10 (encryptBlock plain key) :=
  finalRound_atStage (foldl_fullRound_atStage plain key 9)

/-- Settles O49, by the stages of the rounds and the laws of the key-schedule table. -/
theorem encryptFollowsTheStageTable : Obligations.EncryptFollowsTheStageTable := by
  intro s
  refine ⟨_, exec_encrypt s, rfl, ?_⟩
  rw [setKs_ks, encryptBlock_ks]
  exact ⟨(encryptBlock_atStage s.st s.ky).state_eq, keySchedule_get_zero s.ky, isNextKey_keySchedule s.ky⟩

/-! #### The command sequence -/

/-- The working state in ST and the working key in KY. -/
def loadWorking (x : Working) (s : State) : State := (s.setSt x.s).setKy x.ck

theorem execAll_encryptStart (s : State) :
    execAll [.keysched, .addrk] s = .next (loadWorking (encryptStart s.st s.ky) (s.setKs (keySchedule s.ky))) := rfl

/-- The commands of R162 for one full round. -/
def roundCommands (r : Fin 10) : List Instr := [.subst, .shrows, .mixcol, .keyexp r.val, .addrk]

/-- R162, with the round indices of the pipeline. -/
theorem encryptSequence_eq :
    encryptSequence =
      [Instr.keysched, Instr.addrk] ++
        (fullRoundIndices.flatMap roundCommands ++ [Instr.subst, Instr.shrows, Instr.keyexp 9, Instr.addrk]) := rfl

theorem execAll_fullRound (r : Fin 10) (x : Working) (s : State) :
    execAll (roundCommands r) (loadWorking x s) = .next (loadWorking (fullRound x r) s) := by
  rw [roundCommands, execAll_cons _ (exec_subst _), execAll_cons _ (exec_shrows _), execAll_cons _ (exec_mixcol _),
    execAll_cons _ (exec_keyexp r _), execAll_cons _ (exec_addrk _)]
  rfl

theorem execAll_fullRounds (rs : List (Fin 10)) (x : Working) (s : State) :
    execAll (rs.flatMap roundCommands) (loadWorking x s) = .next (loadWorking (rs.foldl fullRound x) s) := by
  induction rs generalizing x with
  | nil => rfl
  | cons r rs ih => rw [List.flatMap_cons, execAll_append _ (execAll_fullRound r x s), ih, List.foldl_cons]

theorem execAll_finalRound (x : Working) (s : State) :
    execAll [.subst, .shrows, .keyexp 9, .addrk] (loadWorking x s) = .next (loadWorking (finalRound x) s) := rfl

/-- The commands of R162 leave ENCRYPT's state in ST, the last round key in KY and the table of R126 in KS. -/
theorem execAll_encryptSequence (s : State) :
    execAll encryptSequence s = .next (loadWorking (encryptBlock s.st s.ky) (s.setKs (keySchedule s.ky))) := by
  rw [encryptSequence_eq, execAll_append _ (execAll_encryptStart s), execAll_append _ (execAll_fullRounds _ _ _),
    execAll_finalRound, encryptBlock]

/-! #### Commands through the port -/

/-- The state once a command has completed (R31), with `n` free values drawn. -/
def settled (n : Nat) (s : State) : State :=
  { s with pend := none, busy := false, done := true, coreWait := 0, draws := n }

theorem settled_settled (m n : Nat) (s : State) : settled m (settled n s) = settled m s := rfl

/-- No command reads or writes a field that completion sets. -/
theorem exec_settled (n : Nat) {i : Instr} {s t : State} (h : exec i s = .next t) :
    exec i (settled n s) = .next (settled n t) := by
  obtain rfl : (effectOf i s.st s.ky s.w).apply s = t := by simpa [exec_eq_effect] using h
  have hcomm (e : Effect) : e.apply (settled n s) = settled n (e.apply s) := by cases e <;> rfl
  rw [exec_eq_effect, hcomm]
  rfl

/-- Issue accepts the command (R183): its word decodes to it, and its operands are in its domain. -/
def Accepted (i : Instr) : Prop := i.wf = true ∧ domainError i = none

section Port

variable {i : Instr} {rest : List Instr} {s t : State}

/-- An accepted command through the port of an idle core is its meaning, settled. -/
theorem doCommands_cons (hi : Accepted i) (hb : s.busy = false) (h : exec i s = .next t) :
    doCommands (i :: rest) s = doCommands rest (settled (s.draws + 1) t) := by
  obtain ⟨hwf, hdom⟩ := hi
  obtain ⟨u, hu, hstep⟩ := issuedCommandTakesEffectOnce s (encode i) i hb (decodeOfEncodeIsTheCommand i hwf) hdom
  obtain rfl : u = t := by simpa [hu] using h
  have hport : coreStep (busWrite 0x00 (encode i) s) = .next (settled (s.draws + 1) u) := hstep
  rw [doCommands, hport]

theorem doCommands_settled (hrest : ∀ i ∈ rest, Accepted i) (n : Nat) (h : execAll rest s = .next t) :
    ∃ m, doCommands rest (settled n s) = .next (settled m t) := by
  induction rest generalizing n s with
  | nil =>
    obtain rfl : s = t := by simpa using h
    exact ⟨n, rfl⟩
  | cons i rest ih =>
    obtain ⟨hi, hrest⟩ := List.forall_mem_cons.1 hrest
    obtain ⟨u, hu, -⟩ := exec_cases i s
    rw [execAll_cons rest hu] at h
    rw [doCommands_cons hi rfl (exec_settled n hu), settled_settled]
    exact ih hrest _ h

/-- Accepted commands through the port of an idle core are their meanings in turn, settled. -/
theorem doCommands_of_execAll {l : List Instr} (hne : l ≠ []) (hl : ∀ i ∈ l, Accepted i) (hb : s.busy = false)
    (h : execAll l s = .next t) : ∃ n, doCommands l s = .next (settled n t) := by
  obtain ⟨i, rest, rfl⟩ := List.exists_cons_of_ne_nil hne
  obtain ⟨hi, hrest⟩ := List.forall_mem_cons.1 hl
  obtain ⟨u, hu, -⟩ := exec_cases i s
  rw [execAll_cons rest hu] at h
  rw [doCommands_cons hi hb hu]
  exact doCommands_settled hrest _ h

/-- The four writes of LD16 KY set the key of an idle core. -/
theorem writeKey_idle (k : Block) (hb : s.busy = false) : writeKey k s = s.setKy k := by
  have hcol (j : Fin 4) (q : Quad) {u : State} (hu : u.busy = false) :
      busWrite (regAddr (.ky j)) (pack q) u = u.setKy (u.ky.setCol j q) := by
    rw [busWrite_regAddr_ky, dataWrite_idle hu, unpack_pack]
  change busWrite (regAddr (.ky 3)) _ (busWrite (regAddr (.ky 2)) _ (busWrite (regAddr (.ky 1)) _
    (busWrite (regAddr (.ky 0)) _ s))) = _
  simp only [hcol, setKy_busy, hb]
  rfl

end Port

theorem encryptSequence_accepted : ∀ i ∈ encryptSequence, Accepted i := by unfold Accepted; decide

/-- Settles O50: the sequence leaves ENCRYPT's ST and KS (the table of R126), and the last writes restore KY. -/
theorem encryptEqualsItsCommandSequence : Obligations.EncryptEqualsItsCommandSequence := by
  intro s hb
  obtain ⟨m, hm⟩ := doCommands_of_execAll (by decide) encryptSequence_accepted hb (execAll_encryptSequence s)
  obtain ⟨n, hn⟩ :=
    doCommands_of_execAll (by decide) (List.forall_mem_singleton.2 ⟨rfl, rfl⟩) hb (execAll_cons [] (exec_encrypt s))
  refine ⟨_, _, hm, hn, ?_⟩
  rw [writeKey_idle s.ky rfl, encryptBlock_ks]
  rfl

end Sys2Proof.Proofs

/-! ### Recording an error, and issuing a word

What `raise Error(code)` changes (R181), and the checks of Issue in their order on the fields of the word (R183, R186). -/

namespace Sys2Proof.Proofs

open Sys2Proof Sys2Proof.Machine Sys2Proof.Laws Sys2Proof.Spec

section Errors

variable {s : State}

/-- STATUS is the only word that shows an error (R181). -/
theorem busPeek_raiseError {a : BusAddr} (ha : a ≠ 0x01) (code : ErrCode) (s : State) :
    busPeek a (raiseError code s) = busPeek a s := by
  rcases busAddr_cases a with ⟨r, rfl⟩ | ⟨hr, -⟩
  · cases r with
    | status => exact absurd rfl ha
    | _ => simp only [busPeek, regAt_regAddr, raiseError_y, raiseError_w, raiseError_st, raiseError_ky, raiseError_ks]
  · simp only [busPeek, hr]

/-- While ERR = 1 no further error changes ERR or ERRCODE (R181). -/
theorem raiseErrors_keep_first (codes : List ErrCode) (he : s.err = true) :
    (codes.foldl (fun t code => raiseError code t) s).err = true ∧
      (codes.foldl (fun t code => raiseError code t) s).errcode = s.errcode := by
  induction codes generalizing s with
  | nil => exact ⟨he, rfl⟩
  | cons code rest ih =>
    obtain ⟨herr, hcode⟩ := ih (raiseError_err s code)
    exact ⟨herr, hcode.trans (by rw [raiseError_errcode, if_pos he])⟩

end Errors

/-- Settles O25: the first error finds ERR = 0 and writes its code, and every later one finds ERR = 1. -/
theorem firstErrorCodeIsKept : Obligations.FirstErrorCodeIsKept := by
  refine ⟨fun code s => ⟨rfl, ?_, rfl, fun a ha => busPeek_raiseError ha code s⟩, fun first later s he => ?_⟩
  · cases he : s.err <;> simp [he]
  · obtain ⟨herr, hcode⟩ := raiseErrors_keep_first later (raiseError_err s first)
    exact ⟨herr, hcode.trans (by simp [he])⟩

/-- Settles O27: W, ST and KY refuse a write while BUSY = 1, and a STATUS write only clears. -/
theorem busyWritesAreDropped : Obligations.BusyWritesAreDropped := by
  intro a v s
  refine ⟨fun hb ha => busWrite_data_busy v ha hb, fun ha => ?_, busWrite_ignored v⟩
  obtain rfl : a = 0x01 := BitVec.eq_of_toNat_eq ha
  rw [busWrite_status]
  exact ⟨statusWrite_faultMark v s, by simp [statusWrite_eq]⟩

theorem roundIndex_isSome_iff (p : Nat) : (roundIndex p).isSome = true ↔ ¬9 < p := by
  rcases roundIndex_eq p with ⟨h, e⟩ | ⟨h, e⟩
  · simpa [e] using Nat.le_of_lt_succ h
  · simp [e, show 9 < p from h]

/-- Q holds no number over 15, so of the two checks of a range only Q > P is left (R76, R183). -/
theorem rangeLegal_fields_iff (v : Word) : rangeLegal (pNat v) (qNat v) = true ↔ pNat v < qNat v :=
  (rangeLegal_iff _ _).trans (and_iff_left (qNat_lt v))

/-- The domain check of a command, read off the fields of its word (R76, R183). -/
theorem domainError_of_fieldsOf {v : Word} {i : Instr} (hf : fieldsOf v i) :
    domainError i = if (opNat v = 6 ∨ opNat v = 7) ∧ 9 < pNat v then some .roundRange
      else if opNat v = 3 ∧ ¬pNat v < qNat v then some .rangeBounds else none := by
  cases i with
  | subrng p q =>
    obtain ⟨hop, rfl, rfl⟩ := hf
    by_cases h : pNat v < qNat v <;> simp [domainError, hop, rangeLegal_fields_iff, h]
  | addrc p =>
    obtain ⟨hop, rfl⟩ := hf
    by_cases h : 9 < pNat v <;> simp [domainError, hop, roundIndex_isSome_iff, h]
  | keyexp p =>
    obtain ⟨hop, rfl⟩ := hf
    by_cases h : 9 < pNat v <;> simp [domainError, hop, roundIndex_isSome_iff, h]
  | _ => simp_all [fieldsOf, domainError]

/-- A legal word decodes to the command of its fields (R74, R75). -/
theorem decode_of_legal {v : Word} (hl : ¬illegal v) : ∃ i, decode v = .ok i ∧ fieldsOf v i := by
  obtain ⟨i, hf⟩ := exists_fieldsOf_of_legal hl
  exact ⟨i, (decode_eq_ok_iff v i).2 ⟨hf, hl⟩, hf⟩

/-- Settles O26: a legal word decodes, and the domain check of its command is the one of its fields. -/
theorem issueChecksInOrder : Obligations.IssueChecksInOrder := by
  intro v s
  refine ⟨fun hb => ?busy, issue_illegal, fun hb hl hop hp => ?round, fun hb hl hop hpq => ?range,
    fun hb hl hround hrange => ?accepted⟩
  case busy => simp only [issue, hb, if_true, raiseError_eq_raised]
  all_goals
    obtain ⟨i, hd, hf⟩ := decode_of_legal hl
    have hc := domainError_of_fieldsOf hf
  case round => exact issue_outOfDomain hb hd (hc.trans (if_pos ⟨hop, hp⟩))
  case range =>
    exact issue_outOfDomain hb hd (hc.trans (by rw [if_neg (by omega), if_pos ⟨hop, hpq⟩]))
  case accepted =>
    rw [issue_accepted hb hd (hc.trans (by rw [if_neg (by omega), if_neg (by omega)]))]
    rfl

end Sys2Proof.Proofs

/-! ### What every step keeps

Every step is a chain of single updates of the state, and only two of them clear an error: a STATUS write with bit 2 set
and reset (R185). What each update keeps, every step keeps. -/

namespace Sys2Proof.Proofs

open Sys2Proof Sys2Proof.Machine Sys2Proof.Laws Sys2Proof.Spec Relation

/-- One update of the state, the two that clear an error only under the condition `clears`. -/
inductive Update (clears : Prop) : State → State → Prop
  | effect (e : Effect) (s : State) : Update clears s (e.apply s)
  | reject (code : ErrCode) (s : State) : Update clears s (rejectCommand code s)
  | accept (v : Word) (s : State) : Update clears s (acceptCommand v s)
  | complete (s : State) : Update clears s (completeCommand s)
  | clearDone (s : State) : Update clears s s.clearDone
  | advanceDraws (s : State) : Update clears s s.advanceDraws
  | recordRead (r : ReadRecord) (s : State) : Update clears s (s.recordRead r)
  | tickWait (s : State) : Update clears s s.tickWait
  | setHost (ops : List HostOp) (s : State) : Update clears s (s.setHost ops)
  | clearError (h : clears) (s : State) : Update clears s s.clearError
  | reset (h : clears) (s : State) : Update clears s (hostReset s)

section Updates

variable {clears : Prop} {s t : State}

theorem issue_updates (v : Word) (s : State) : ReflTransGen (Update clears) s (issue v s) := by
  rcases issue_cases v s with ⟨-, e⟩ | ⟨-, -, e⟩ | ⟨-, i, code, -, -, e⟩ | ⟨-, i, -, -, e⟩ <;> rw [e]
  · exact .single (.effect (.raise .busyWrite) s)
  · exact .single (.reject _ s)
  · exact .single (.reject _ s)
  · exact .single (.accept v s)

theorem statusWrite_updates {v : Word} (h : v.getLsbD 2 = true → clears) (s : State) :
    ReflTransGen (Update clears) s (statusWrite v s) := by
  rcases statusWrite_cases v s with e | e | ⟨hv, e | e⟩ <;> rw [e]
  · exact .single (.clearDone s)
  · exact .single (.clearError (h hv) s)
  · exact (ReflTransGen.single (.clearDone s)).tail (.clearError (h hv) _)

theorem busWrite_updates {a : BusAddr} {v : Word} (h : a = 0x01 → v.getLsbD 2 = true → clears) (s : State) :
    ReflTransGen (Update clears) s (busWrite a v s) := by
  rcases busWrite_cases a v s with ⟨-, e⟩ | ⟨ha, e⟩ | e | ⟨-, -, e⟩ | ⟨-, e | ⟨x, e⟩ | ⟨x, e⟩⟩ <;> rw [e]
  · exact issue_updates v s
  · exact statusWrite_updates (h ha) s
  · exact .single (.effect (.raise .busyWrite) s)
  · exact .single (.effect (.writeW _) s)
  · exact .single (.effect (.writeSt x) s)
  · exact .single (.effect (.writeKy x) s)

theorem hostRead_updates (a : BusAddr) (name : Option (List Char)) (s : State) :
    ReflTransGen (Update clears) s (hostRead a name s) := by
  rcases busRead_cases a s with e | e <;> rw [hostRead, e]
  · exact .single (.recordRead _ s)
  · exact (ReflTransGen.single (.advanceDraws s)).tail (.recordRead _ _)

theorem hostPoll_updates (s : State) : ReflTransGen (Update clears) s (hostPoll s) := by
  rw [hostPoll_eq]
  split
  · exact (ReflTransGen.single (.recordRead _ s)).tail (.setHost _ _)
  · exact .single (.recordRead _ s)

theorem hostPerform_updates {op : HostOp} (ht : hostPerform op s = .next t) (h : clearsError s.inst op → clears) :
    ReflTransGen (Update clears) s t := by
  rcases hostPerform_cases ht with ⟨a, v, hop, rfl⟩ | ⟨a, name, rfl⟩ | ⟨-, rfl⟩ | ⟨hop, rfl⟩
  · refine busWrite_updates (fun ha hv => h (.inr ⟨v, hv, ?_⟩)) s
    subst ha
    exact hop.imp_right fun ⟨b, n, hop, hword⟩ => ⟨b, n, hword, hop⟩
  · exact hostRead_updates a name s
  · exact hostPoll_updates s
  · exact .single (.reset (h (.inl hop)) s)

/-- A step is a chain of updates that clear an error only in the Host's move, and only by an operation that does so. -/
theorem step_updates (ht : step s = .next t) :
    ReflTransGen (Update (coreMoves s = false ∧ ∃ op ∈ s.host.head?, clearsError s.inst op)) s t := by
  rcases step_cases ht with ⟨-, v, i, u, -, -, hu, -, rfl⟩ | ⟨hm, op, rest, hh, hop⟩ | ⟨-, -, -, rfl⟩
  · rw [exec_eq_effect] at hu
    cases hu
    exact (ReflTransGen.single (.effect _ s)).tail (.complete _)
  · exact .head (.tickWait s) (.head (.setHost rest _)
      (hostPerform_updates hop fun hclears => ⟨hm, op, by simp [hh], hclears⟩))
  · exact .refl

/-- What every update keeps, a chain of updates keeps. -/
theorem updates_keep {P : State → Prop} (hP : ∀ {a b}, Update clears a b → P a → P b)
    (h : ReflTransGen (Update clears) s t) (hs : P s) : P t := by
  induction h with
  | refl => exact hs
  | tail _ hu ih => exact hP hu ih

theorem update_keeps_faultMark (h : Update clears s t) (hs : s.faultMark = true) : t.faultMark = true := by
  cases h with
  | effect e => cases e <;> simp [Effect.apply, hs]
  | _ => simp [hs]

theorem update_keeps_inst (h : Update clears s t) : t.inst = s.inst := by
  cases h with
  | effect e => cases e <;> rfl
  | _ => rfl

/-- A recorded error stays with its code unless it is cleared (R181, R185). -/
theorem update_keeps_error {code : ErrCode} (hclears : ¬clears) (h : Update clears s t)
    (hs : s.err = true ∧ s.errcode = code) : t.err = true ∧ t.errcode = code := by
  cases h with
  | effect e => cases e <;> simp [Effect.apply, hs]
  | clearError h => exact absurd h hclears
  | reset h => exact absurd h hclears
  | _ => simp [hs]

theorem step_keeps_inst (ht : step s = .next t) : t.inst = s.inst :=
  updates_keep (P := fun u => u.inst = s.inst) (fun hu => (update_keeps_inst hu).trans) (step_updates ht) rfl

end Updates

/-- Settles O14: no update takes the mark back, clears and reset included. -/
theorem faultMarkIsSticky : Obligations.FaultMarkIsSticky :=
  ⟨fun _ _ => rfl, fun _ _ hs ht => updates_keep update_keeps_faultMark (step_updates ht) hs⟩

/-- Settles O15: were the step no clear, none of its updates would touch the recorded error. -/
theorem onlyAClearOrResetClearsErr : Obligations.OnlyAClearOrResetClearsErr := by
  refine ⟨fun s t hs ht hchanged => ?_, fun s v hv => ?_, fun s => ⟨rfl, rfl⟩⟩
  · by_contra hclears
    obtain ⟨herr, hcode⟩ := updates_keep (P := fun u => u.err = true ∧ u.errcode = s.errcode)
      (update_keeps_error hclears) (step_updates ht) ⟨hs, rfl⟩
    simp [herr, hcode] at hchanged
  · rw [busWrite_status, statusWrite_eq]
    simp [hv]

/-- A step of a system is the step of one of its cores, put back in its place (R194). -/
theorem systemStep_eq_next {cores out : List State} {k : Nat} {s : State} (hs : cores[k]? = some s)
    (h : systemStep cores k = .next out) : ∃ t, step s = .next t ∧ out = cores.set k t := by
  cases hstep : step s with
  | next t => exact ⟨t, rfl, by simpa [systemStep, hs, hstep, eq_comm] using h⟩
  | fault r => simp [systemStep, hs, hstep] at h
  | refused r => simp [systemStep, hs, hstep] at h

/-- Settles O19: a step of the system replaces one entry of the list, and no update changes a core's number. -/
theorem instancesDoNotInteract : Obligations.InstancesDoNotInteract := by
  refine ⟨fun cores out k s hs h => ?_, fun s t => step_keeps_inst, by simp [systemReset], Nat.le_add_left 1 _,
    fun k hk => by simp [systemReset, hk, resetInstance]⟩
  obtain ⟨t, ht, rfl⟩ := systemStep_eq_next hs h
  obtain ⟨hk, -⟩ := List.getElem?_eq_some_iff.1 hs
  exact ⟨List.length_set, fun j hj => List.getElem?_set_ne hj.symm, t, ht, List.getElem?_set_self hk⟩

end Sys2Proof.Proofs

/-! ### The words outside a command's write set

A write to one register changes no bus word but that register's own (R20), so a command changes no word outside its write
set (R205). -/

namespace Sys2Proof.Proofs

open Sys2Proof Sys2Proof.Machine Sys2Proof.Laws Sys2Proof.Spec

section Frame

variable {a : BusAddr} (s : State)

theorem busPeek_setY (ha : a.toNat ≠ 0x02) (v : Byte) : busPeek a (s.setY v) = busPeek a s := by
  simp only [busPeek_eq_currentWord, currentWord, if_neg ha]
  rfl

theorem busPeek_setW (ha : a.toNat ≠ 0x03) (v : Quad) : busPeek a (s.setW v) = busPeek a s := by
  simp only [busPeek_eq_currentWord, currentWord, if_neg ha]
  rfl

theorem busPeek_setSt (ha : ¬(0x04 ≤ a.toNat ∧ a.toNat ≤ 0x07)) (v : Block) :
    busPeek a (s.setSt v) = busPeek a s := by
  simp only [busPeek_eq_currentWord, currentWord, if_neg ha]
  rfl

theorem busPeek_setKy (ha : ¬(0x08 ≤ a.toNat ∧ a.toNat ≤ 0x0B)) (v : Block) :
    busPeek a (s.setKy v) = busPeek a s := by
  simp only [busPeek_eq_currentWord, currentWord, if_neg ha]
  rfl

theorem busPeek_setKs (ha : ¬(0x10 ≤ a.toNat ∧ a.toNat ≤ 0x3B)) (v : KeyTable) :
    busPeek a (s.setKs v) = busPeek a s := by
  simp only [busPeek_eq_currentWord, currentWord, if_neg ha]
  rfl

end Frame

/-- Settles O54: in its domain a command only writes registers, and their words are its write set. -/
theorem commandsWriteOnlyTheirWriteSet : Obligations.CommandsWriteOnlyTheirWriteSet := by
  intro i s hn
  obtain ⟨t, ht, hr⟩ := exec_cases i s
  refine ⟨t, ht, fun a ha => ?_⟩
  cases hr with
  | raised code hc => simp [hn] at hc
  | wroteY _ v hi =>
    refine busPeek_setY s ?_ v
    rcases hi with ⟨x, y, rfl⟩ | ⟨x, rfl⟩ <;> exact ha
  | wroteW _ v hi =>
    refine busPeek_setW s ?_ v
    rcases hi with rfl | rfl | ⟨p, rfl⟩ <;> exact ha
  | wroteSt _ v hi =>
    refine busPeek_setSt s ?_ v
    rcases hi with ⟨p, q, rfl⟩ | rfl | rfl | rfl | rfl <;> exact ha
  | wroteKy _ v hi =>
    obtain ⟨p, rfl⟩ := hi
    exact busPeek_setKy s ha v
  | wroteKs _ v hi =>
    subst hi
    exact busPeek_setKs s ha v
  | wroteStKs _ v k hi =>
    subst hi
    obtain ⟨hst, hks⟩ := not_or.1 ha
    calc busPeek a ((s.setSt v).setKs k)
        = busPeek a (s.setSt v) := busPeek_setKs _ hks k
      _ = busPeek a s := busPeek_setSt s hst v

end Sys2Proof.Proofs
